-- ==== Sys2Proof/Word.lean ====
section
/-! DEFINITION. The words of the block: bytes, 32-bit command and pixel words, 64-bit time values. -/

namespace Sys2Proof

/-- One byte: a quarter of a pixel (R64), or a RAND result (R200). -/
abbrev Byte := BitVec 8

/-- A command word (R90) or a pixel word (R64). -/
abbrev Word := BitVec 32

/-- A time value, the result of `Now()` (R170), or response data (R96). -/
abbrev Word64 := BitVec 64

end Sys2Proof
end

