-- ==== Sys2Proof/Syntax.lean ====
section
/-! DEFINITION. The nine commands of the block (R90, R91), one constructor for each row of the opcode table. -/

namespace Sys2Proof

/-- A command and its operands. Operands are the numbers of R93; that each fits its field is
`Instr.wellFormed`. -/
inductive Instr
  /-- RAND (R200) -/
  | rand
  /-- KEYP idx (R152) -/
  | keyp (idx : Nat)
  /-- SETPX x, y, lit (R122) -/
  | setpx (x y : Nat) (lit : Bool)
  /-- GETPX x, y (R123) -/
  | getpx (x y : Nat)
  /-- SETRES w, h (R124) -/
  | setres (w h : Nat)
  /-- GETRES (R125) -/
  | getres
  /-- TICKS (R177) -/
  | ticks
  /-- BEEP (R201) -/
  | beep
  /-- STEP (R210) -/
  | step
  deriving DecidableEq, Repr

end Sys2Proof
end

