-- ==== Sys2Proof/WellFormed.lean ====
section
/-! DEFINITION. Which commands are encodable: each operand within the range its field gives it (R93). -/

namespace Sys2Proof

/-- Every operand fits its field: `x` is 0..63, `y` is 0..31, `idx` is 0..255, `w` and `h` are 0..4095 (R93).
"An operand that does not fit its field is an assembly error, not a truncation" (R102). -/
def Instr.wellFormed : Instr → Bool
  | .rand => true
  | .keyp idx => decide (idx < 256)
  | .setpx x y _ => decide (x < 64) && decide (y < 32)
  | .getpx x y => decide (x < 64) && decide (y < 32)
  | .setres w h => decide (w < 4096) && decide (h < 4096)
  | .getres => true
  | .ticks => true
  | .beep => true
  | .step => true

end Sys2Proof
end

