-- ==== Sys2Proof/Decode.lean ====
section
/-! DEFINITION. The decoder of command words, total and rejecting by name (R90 to R95), and after it the
encoder (R92), the opcode table's masks (R92) and the textual form (R102). -/

namespace Sys2Proof

/-- `v[hi:lo]` of R9: the bits from `hi` down to `lo`, read as an unsigned number. -/
def bits (w : Word) (hi lo : Nat) : Nat := w.toNat / 2 ^ lo % 2 ^ (hi + 1 - lo)

/-- Why a command word is illegal. -/
inductive Illegal
  /-- `op` is 0x0 or 0xA..0xF (R95). -/
  | unassignedOpcode
  /-- `op` is assigned and a reserved bit of its format is 1 (R94). -/
  | reservedBits
  deriving DecidableEq, Repr

/-- A word of an assigned opcode: the command, unless a reserved bit is set (R94). -/
def legalWhen (reservedClear : Bool) (i : Instr) : Except Illegal Instr :=
  if reservedClear then .ok i else .error .reservedBits

/-- Format N: bits 27:0 are reserved. -/
def decodeN (w : Word) (i : Instr) : Except Illegal Instr :=
  legalWhen (decide (bits w 27 0 = 0)) i

/-- Format K: bits 27:8 are reserved. -/
def decodeK (w : Word) : Except Illegal Instr :=
  legalWhen (decide (bits w 27 8 = 0)) (.keyp (bits w 7 0))

/-- Format P: bits 27:17, 15:13 and 7:6 are reserved. -/
def decodeP (w : Word) : Except Illegal Instr :=
  legalWhen (decide (bits w 27 17 = 0) && decide (bits w 15 13 = 0) && decide (bits w 7 6 = 0))
    (.setpx (bits w 5 0) (bits w 12 8) (decide (bits w 16 16 = 1)))

/-- Format Q: bits 27:13 and 7:6 are reserved. -/
def decodeQ (w : Word) : Except Illegal Instr :=
  legalWhen (decide (bits w 27 13 = 0) && decide (bits w 7 6 = 0)) (.getpx (bits w 5 0) (bits w 12 8))

/-- Format R: bits 27:24 are reserved. -/
def decodeR (w : Word) : Except Illegal Instr :=
  legalWhen (decide (bits w 27 24 = 0)) (.setres (bits w 11 0) (bits w 23 12))

/-- The decoder: the opcode of R91 selects the format of R92. It reads the word's own bits alone (R101). -/
def decode (w : Word) : Except Illegal Instr :=
  match bits w 31 28 with
  | 1 => decodeN w .rand
  | 2 => decodeK w
  | 3 => decodeP w
  | 4 => decodeQ w
  | 5 => decodeR w
  | 6 => decodeN w .getres
  | 7 => decodeN w .ticks
  | 8 => decodeN w .beep
  | 9 => decodeN w .step
  | _ => .error .unassignedOpcode

/-- The instruction read from the table's word `w` of `nbits` bits; all bits above `nbits` are 0. A command is
one 32-bit word on `cmd` (R90), so there are no bytes to lay out. -/
def decodeTableWord (nbits w : Nat) : Option Instr :=
  (decode (BitVec.ofNat 32 (w % 2 ^ nbits))).toOption

/-- The opcode, bits 31:28 (R91). -/
def Instr.opcode : Instr → Nat
  | .rand => 0x1
  | .keyp _ => 0x2
  | .setpx _ _ _ => 0x3
  | .getpx _ _ => 0x4
  | .setres _ _ => 0x5
  | .getres => 0x6
  | .ticks => 0x7
  | .beep => 0x8
  | .step => 0x9

/-- Bits 27:0: each operand at its place in the format, reserved bits 0 (R92). -/
def Instr.operandBits : Instr → Nat
  | .rand => 0
  | .keyp idx => idx
  | .setpx x y lit => lit.toNat * 2 ^ 16 + y * 2 ^ 8 + x
  | .getpx x y => y * 2 ^ 8 + x
  | .setres w h => h * 2 ^ 12 + w
  | .getres => 0
  | .ticks => 0
  | .beep => 0
  | .step => 0

/-- The command word of a well-formed command (R92). -/
def encode (i : Instr) : Word := BitVec.ofNat 32 (i.opcode * 2 ^ 28 + i.operandBits)

/-- A row of R92's table of patterns: the word `c` is a command of the row exactly when
`(c AND mask) = match`. -/
structure Row where
  mnemonic : String
  matchBits : Word
  mask : Word
  deriving DecidableEq, Repr

/-- The row's test of a word (R92). -/
def Row.hits (r : Row) (w : Word) : Bool := decide (w &&& r.mask = r.matchBits)

/-- The row of R92's table a command belongs to. -/
def Instr.row : Instr → Row
  | .rand => { mnemonic := "RAND", matchBits := 0x10000000#32, mask := 0xFFFFFFFF#32 }
  | .keyp _ => { mnemonic := "KEYP", matchBits := 0x20000000#32, mask := 0xFFFFFF00#32 }
  | .setpx _ _ _ => { mnemonic := "SETPX", matchBits := 0x30000000#32, mask := 0xFFFEE0C0#32 }
  | .getpx _ _ => { mnemonic := "GETPX", matchBits := 0x40000000#32, mask := 0xFFFFE0C0#32 }
  | .setres _ _ => { mnemonic := "SETRES", matchBits := 0x50000000#32, mask := 0xFF000000#32 }
  | .getres => { mnemonic := "GETRES", matchBits := 0x60000000#32, mask := 0xFFFFFFFF#32 }
  | .ticks => { mnemonic := "TICKS", matchBits := 0x70000000#32, mask := 0xFFFFFFFF#32 }
  | .beep => { mnemonic := "BEEP", matchBits := 0x80000000#32, mask := 0xFFFFFFFF#32 }
  | .step => { mnemonic := "STEP", matchBits := 0x90000000#32, mask := 0xFFFFFFFF#32 }

/-- The nine rows of R92's table. -/
def rows : List Row :=
  [Instr.rand.row, (Instr.keyp 0).row, (Instr.setpx 0 0 false).row, (Instr.getpx 0 0).row,
   (Instr.setres 0 0).row, Instr.getres.row, Instr.ticks.row, Instr.beep.row, Instr.step.row]

/-- The operands in the order of R102, written in decimal, `lit` as 0 or 1. -/
def Instr.operands : Instr → List Nat
  | .rand => []
  | .keyp idx => [idx]
  | .setpx x y lit => [x, y, lit.toNat]
  | .getpx x y => [x, y]
  | .setres w h => [w, h]
  | .getres => []
  | .ticks => []
  | .beep => []
  | .step => []

/-- The textual form of a command: the mnemonic, then its operands separated by commas (R102). -/
def Instr.text (i : Instr) : String :=
  match i.operands with
  | [] => i.row.mnemonic
  | ops => i.row.mnemonic ++ " " ++ String.intercalate ", " (ops.map toString)

/-- Assembling a command: "An operand that does not fit its field is an assembly error, not a truncation"
(R102), so an ill-formed command has no word. -/
def assemble (i : Instr) : Option Word := if i.wellFormed then some (encode i) else none

end Sys2Proof
end

