-- ==== Sys2Proof/Config.lean ====
section
/-! DEFINITION. What one build of the block fixes (R8's OPEN parameters) and the one free value. -/

namespace Sys2Proof

/-- The two derivations of the time value, "selected at build/config time" (R8, R170). -/
inductive ClockMode
  | cycle
  | calendar
  deriving DecidableEq, Repr

/-- The OPEN parameters of R8. They are held in State, where no command changes them, so that every
statement about all states is a statement about all parameters (log 4). -/
structure Config where
  /-- `CLOCK_MODE` -/
  clockMode : ClockMode
  /-- `EXIT_SCANCODE` -/
  exitScancode : BitVec 16
  /-- `CLK_HZ`, the frequency of `clk` in hertz -/
  clkHz : Nat
  deriving DecidableEq, Repr

/-- The parameters `State.reset` holds. DESIGN CHOICE, unsafe for a claim about a run from reset (log 4):
the spec leaves all three OPEN; 0x0017 is its default exit scancode (R8). -/
def Config.default : Config :=
  { clockMode := .cycle, exitScancode := 0x0017#16, clkHz := 1000000 }

/-- `CLK_HZ` "must be below 600·2^32 for the load value to fit" STALL_CNT (R218). -/
abbrev Config.StallFits (c : Config) : Prop := c.clkHz < 600 * 2 ^ 32

/-- FREE VALUE: the n-th byte the entropy source yields, `Draw_8()` of R200, "any value 0..255, under no
law". It has no body, so that nothing can be proved of it (log 6). -/
opaque Config.freeByte : Nat → Byte

end Sys2Proof
end

