-- ==== Sys2Proof/Machine/State.lean ====
section
/-! DEFINITION. The state of the machine as plain data: the block's own state (R20), and beside it what a
step must be a function of: PLATFORM's framebuffer, the parameters, the input ports, HOST's pending command
words, and the outputs of the last command. -/

namespace Sys2Proof.Machine

/-- The 64×32 logical grid: 32 rows indexed by `y`, 64 columns indexed by `x` (R21). -/
abbrev Grid := Vector (Vector Bool 64) 32

/-- A byte-addressed memory: (address, byte) pairs, addresses strictly rising (`Memory.WF`). -/
abbrev Memory := List Host.Cell

/-- The six values of the sequencer state `fsm` (R26). -/
inductive Fsm
  | ready
  | raster
  | poll
  | time
  | stall
  | halt
  deriving DecidableEq, Repr

/-- The three causes of a fatal fault (R241). -/
inductive FatalCause
  | fbFail
  | clkFail
  | keyFail
  deriving DecidableEq, Repr

/-- The values of `resp_status` (R96). -/
inductive Status
  | ok
  | illegal
  | fatal
  deriving DecidableEq, Repr

/-- A response: `resp_status` and `resp_data` (R96). -/
structure Response where
  status : Status
  data : Word64
  deriving DecidableEq, Repr

/-- One port activity of a command, as PLATFORM sees it. -/
inductive PortAction
  /-- A pixel write at byte offset `off`, acknowledged as performed (R11's `MemWrite`). -/
  | fbWrite (off : Nat) (word : Word)
  /-- A pixel write presented and refused with `fb_err` (R242). -/
  | fbRefused (off : Nat) (word : Word)
  /-- One key poll (R211). -/
  | keyPoll
  /-- One sample of the cycle counter (R171). -/
  | cycleRead
  /-- One calendar read (R173). -/
  | calendarRead
  /-- One stall of so many `clk` cycles (R215). -/
  | stall (cycles : Nat)
  deriving DecidableEq, Repr

/-- PLATFORM's answer to one pixel write: `fb_ack` with or without `fb_err`. -/
inductive FbAck
  | accepted
  /-- Refused; `left` is what the refused pixel's four bytes hold afterwards, any value (U12, log 8). -/
  | refused (left : Word)
  /-- Never acknowledged (U20). -/
  | silent
  deriving DecidableEq, Repr

/-- PLATFORM's answers to all the pixel writes of one command. Nothing is issued after the first write that
is not accepted (R242), so the index of that one, counted from 0, says all of it. -/
inductive FbAnswers
  | allAccepted
  | refusedAt (k : Nat) (left : Word)
  | silentAt (k : Nat)
  deriving DecidableEq, Repr

/-- The answer to a key poll: `key_err`, `key_kind`, `key_code` (R99). -/
structure KeyAnswer where
  err : Bool
  kind : BitVec 2
  code : BitVec 16
  deriving DecidableEq, Repr

/-- The answer to a calendar read: `cal_err` and the seven fields of R100, `cal_year` in two's complement. -/
structure CalAnswer where
  err : Bool
  year : BitVec 16
  month : BitVec 4
  day : BitVec 5
  hour : BitVec 5
  minute : BitVec 6
  second : BitVec 6
  nsec : BitVec 30
  deriving DecidableEq, Repr

/-- What PLATFORM presents on the block's input ports during one command: R11's `PlatformAnswers`. A request
that is never acknowledged has the answer `none` (U20). -/
structure Inputs where
  /-- `cfg_w` -/
  cfgW : BitVec 16
  /-- `cfg_h` -/
  cfgH : BitVec 16
  /-- `cfg_stride` -/
  cfgStride : BitVec 16
  /-- the answer to `key_req` -/
  key : Option KeyAnswer
  /-- `cyc` at the moment of the read -/
  cyc : Word64
  /-- the answer to `cal_req` -/
  cal : Option CalAnswer
  /-- the answers to `fb_req` -/
  fb : FbAnswers
  deriving DecidableEq, Repr

/-- What the outside does to the block next. -/
inductive Event
  /-- HOST issues a command word; `ports` is what PLATFORM presents during it (R5, R11). -/
  | command (word : Word) (ports : Inputs)
  /-- `rst` is asserted (R280). -/
  | reset
  deriving DecidableEq, Repr

/-- The state of the machine. The fields `grid` to `entropy` are R20's complete table of the block's state;
the rest is not state of the block (R31 to R35) and stands here because a step is a function of State. -/
structure State where
  /-- `GRID[y][x]` (R21) -/
  grid : Grid
  /-- `LRES_W` (R22) -/
  lresW : BitVec 12
  /-- `LRES_H` (R22) -/
  lresH : BitVec 12
  /-- `KEY_HELD` (R23) -/
  keyHeld : Bool
  /-- `KEY_CHAR` (R24) -/
  keyChar : BitVec 16
  /-- `KEY_TIME` (R25) -/
  keyTime : Word64
  /-- `fsm` (R26) -/
  fsm : Fsm
  /-- `FATAL` (R27) -/
  fatal : Bool
  /-- `FCAUSE` (R27) -/
  fcause : BitVec 2
  /-- `STALL_CNT` (R29, R218) -/
  stallCnt : BitVec 32
  /-- `RI` (R29) -/
  ri : BitVec 9
  /-- `RJ` (R29) -/
  rj : BitVec 10
  /-- `ENTROPY` (R30), opaque in the spec: here the number of bytes drawn so far (log 6) -/
  entropy : Nat
  /-- the physical framebuffer, PLATFORM's (R34) -/
  fb : Memory
  /-- the OPEN parameters of R8 (log 4) -/
  config : Config
  /-- the input ports during the current command (R7, R11) -/
  inputs : Inputs
  /-- what the outside does next, in order (log 2) -/
  events : List Event
  /-- the response of the last accepted command (R96) -/
  resp : Option Response
  /-- the port activity of the last accepted command, in order (log 14) -/
  activity : List PortAction
  deriving DecidableEq, Repr

/-- How the machine stops. All four are safe: the model stops where the hardware waits for ever (log 10, 11). -/
inductive Fault
  /-- Raised by SETPX: PLATFORM never acknowledges a pixel write; the command never completes (U20, R294). Safe. -/
  | framebufferSilent
  /-- Raised by STEP: PLATFORM never acknowledges the key poll (U20, R294). Safe. -/
  | keyPollSilent
  /-- Raised by TICKS and STEP in CALENDAR mode: PLATFORM never acknowledges the calendar read (U20, R294). Safe. -/
  | calendarSilent
  /-- Raised by every command presented while `cmd_ready` is 0: it is not accepted (R98). No command boundary
  has such a state (`State.Inv`). Safe. -/
  | notReady
  deriving DecidableEq, Repr

/-- Why a term of `Instr` is given no meaning. -/
inductive Refusal
  /-- Raised by an arm of `exec` whose instruction has no meaning yet. Safe. -/
  | notModelled (mnemonic : String)
  /-- Raised by every meaning on an ill-formed command: an operand that no field can carry (R93, U2), so that
  no command word stands behind it. Safe (log 12). -/
  | operandOutsideField
  deriving DecidableEq, Repr

/-- The input ports `State.reset` holds. DESIGN CHOICE, unsafe for a claim about a run from reset (log 5):
they are PLATFORM's and the block does not reset them (R37). Zero everywhere, no key event, the calendar at
1970-01-01T00:00:00, no error. -/
def Inputs.default : Inputs :=
  { cfgW := 0, cfgH := 0, cfgStride := 0
    key := some { err := false, kind := 0, code := 0 }
    cyc := 0
    cal := some { err := false, year := 1970, month := 1, day := 1, hour := 0, minute := 0, second := 0, nsec := 0 }
    fb := .allAccepted }

/-- The machine right after reset in a build with parameters `c` and with `ports` on its inputs: R37's reset
values, nothing known of the framebuffer (U9), nothing pending. -/
def State.powerOn (c : Config) (ports : Inputs) : State :=
  { grid := Vector.replicate 32 (Vector.replicate 64 false)
    lresW := 0, lresH := 0
    keyHeld := false, keyChar := 0, keyTime := 0
    fsm := .ready, fatal := false, fcause := 0
    stallCnt := 0, ri := 0, rj := 0
    entropy := 0
    fb := []
    config := c
    inputs := ports
    events := []
    resp := none
    activity := [] }

/-- The machine right after reset (R37, R281). -/
def State.reset : State := State.powerOn Config.default Inputs.default

end Sys2Proof.Machine
end

