-- ==== Sys2Proof/Machine/Operands.lean ====
section
/-! DEFINITION. What the operands and the port answers name: the key table (R150), the key events (R99), the
scale transform (R120), the rectangle of a cell and the byte offsets of its pixels (R121, R63), the pixel word
(R64), the length of the stall (R215). -/

namespace Sys2Proof.Machine

/-- KEYMAP: the fixed table from the sixteen key indices to character codes (R150). -/
def keymap : List (BitVec 16) :=
  [0x0078#16, 0x0031#16, 0x0032#16, 0x0033#16, 0x0071#16, 0x0077#16, 0x0065#16, 0x0061#16,
   0x0073#16, 0x0064#16, 0x007A#16, 0x0063#16, 0x0034#16, 0x0065#16, 0x0064#16, 0x0063#16]

/-- The three ways STEP takes a key event (R210). -/
inductive KeyEvent
  /-- The exit event: "exactly `key_kind = 1 and key_code = EXIT_SCANCODE`" (R99). -/
  | exit
  /-- A printable event and its character code. -/
  | printable (code : BitVec 16)
  /-- No event, a special event that is not the exit event, the reserved kind 3 (R214). -/
  | other
  deriving DecidableEq, Repr

/-- The event an answered poll stands for (R99). -/
def keyEvent (exitScancode : BitVec 16) (kind : BitVec 2) (code : BitVec 16) : KeyEvent :=
  if kind = 1 ∧ code = exitScancode then .exit
  else if kind = 2 then .printable code
  else .other

/-- The scale transform's four numbers (R120). -/
structure Scale where
  rx : Nat
  ry : Nat
  xs : Nat
  ys : Nat
  deriving DecidableEq, Repr

/-- `Scale(W, H)` (R120): pixels per cell and the top-left corner of the canvas. The divisors are the fixed
counts 64 and 32, never LRES (R128). -/
def scale (W H : Nat) : Scale :=
  let rx := W / 64 / 2
  let ry := H / 32 / 2
  { rx := rx, ry := ry, xs := (W - 64 * rx) / 2, ys := (H - 32 * ry) / 2 }

/-- The column of the `i`-th pixel in a row of cell column `x` (R121). -/
def Scale.px (sc : Scale) (x i : Nat) : Nat := sc.xs + x * sc.rx + i

/-- The scan line of the `j`-th pixel row of cell row `y` (R121). -/
def Scale.py (sc : Scale) (y j : Nat) : Nat := sc.ys + y * sc.ry + j

/-- The byte offset of physical pixel (px, py): `off = 4 * (py * STRIDE + px)` (R63), over unbounded integers. -/
def pixelOffset (stride px py : Nat) : Nat := 4 * (py * stride + px)

/-- The byte offset of pixel (i, j) of cell (x, y) (R78). -/
def Scale.offset (sc : Scale) (stride x y i j : Nat) : Nat := pixelOffset stride (sc.px x i) (sc.py y j)

/-- The offsets of a cell's pixels in the order they are written: rows top to bottom, in a row left to right
(R67, R122). -/
def Scale.cellOffsets (sc : Scale) (stride x y : Nat) : List Nat :=
  (List.range sc.ry).flatMap fun j => (List.range sc.rx).map fun i => sc.offset stride x y i j

/-- The scale transform of the sampled `cfg_w`, `cfg_h` (R120). -/
def Inputs.scale (p : Inputs) : Scale := Sys2Proof.Machine.scale p.cfgW.toNat p.cfgH.toNat

/-- The offsets SETPX x, y writes under the sampled `cfg_*`, in order (R122). -/
def Inputs.cellOffsets (p : Inputs) (x y : Nat) : List Nat := p.scale.cellOffsets p.cfgStride.toNat x y

/-- The pixel word of a cell: WHITE when lit, BLACK when not (R64). The X byte, bits 31:24, is 0 by the spec's
own decision D8 (log 7). -/
def pixelWord (lit : Bool) : Word := if lit then 0x00FFFFFF#32 else 0x00000000#32

/-- PLATFORM's answer to the `k`-th pixel write of the command, counted from 0. -/
def FbAnswers.answer : FbAnswers → Nat → FbAck
  | .allAccepted, _ => .accepted
  | .refusedAt n left, k => if k = n then .refused left else .accepted
  | .silentAt n, k => if k = n then .silent else .accepted

/-- `STALL_CYCLES = CLK_HZ div 600` (R215). -/
def stallCycles (c : Config) : Nat := c.clkHz / 600

end Sys2Proof.Machine
end

