-- ==== Sys2Proof/Machine/Flags.lean ====
section
/-! DEFINITION. The block's flags and status codes: the debounce test that clears KEY_HELD (R154), the key
match of KEYP (R152), the fatal cause codes (R241) and the status codes (R96). There are no arithmetic
condition codes (R28). -/

namespace Sys2Proof.Machine

/-- DEBOUNCE, in time units (R8). -/
def debounce : Nat := 200000000

/-- `wsub64(a, b) = (a − b) mod 2^64` (R10). -/
def wsub64 (a b : Word64) : Word64 := a - b

/-- The test of `KeyTimeout(t)`: strict and unsigned on the wrapped difference (R154). -/
def debounceExpired (t keyTime : Word64) : Bool := decide (debounce < (wsub64 t keyTime).toNat)

/-- KEYP's result: Held, an index of the table, and the held character equal to the mapped one (R152). -/
def keyMatches (held : Bool) (char : BitVec 16) (idx : Nat) : Bool :=
  held && decide (idx ≤ 15) && decide (keymap[idx]? = some char)

/-- The cause code FCAUSE records (R241). -/
def FatalCause.code : FatalCause → BitVec 2
  | .fbFail => 1
  | .clkFail => 2
  | .keyFail => 3

/-- The value on `resp_status`; 3 is never driven (R96). -/
def Status.code : Status → BitVec 2
  | .ok => 0
  | .illegal => 1
  | .fatal => 2

/-- `zext_64` of a `bool` result: bit 0 the result, bits 63:1 zero (R96). -/
def boolData (b : Bool) : Word64 := if b then 1 else 0

end Sys2Proof.Machine
end

