-- ==== Sys2Proof/Machine/Ops.lean ====
section
/-! DEFINITION. The operations the meanings share: the grid, the framebuffer, the port accesses, the response,
taking a fatal fault (R245), accepting a command (R98, R251), and reset (R280). -/

namespace Sys2Proof.Machine

/-! ### GRID -/

/-- `GRID[y][x]` (R61). -/
def Grid.cell (g : Grid) (x y : Nat) : Bool := (g[y]?.bind (·[x]?)).getD false

/-- `GRID[y][x] <- b`: "a write to one cell changes no other cell" (R61). -/
def Grid.setCell (g : Grid) (x y : Nat) (b : Bool) : Grid :=
  g.setIfInBounds y ((g[y]?.getD (Vector.replicate 64 false)).setIfInBounds x b)

/-! ### FB, the physical framebuffer -/

/-- What an unlisted byte reads as: no value. The spec gives the framebuffer no contents (U9, R282; log 9). -/
def Memory.unlisted : Option Byte := none

/-- The byte at offset `a`, or no value where nothing is known of it. No command reads FB (R60). -/
def Memory.read : Memory → Nat → Option Byte
  | [], _ => Memory.unlisted
  | (c, v) :: rest, a => if a = c then some v else Memory.read rest a

/-- One byte is written, keeping the addresses strictly rising. -/
def Memory.write : Memory → Nat → Byte → Memory
  | [], a, b => [(a, b)]
  | (c, v) :: rest, a, b =>
    if a < c then (a, b) :: (c, v) :: rest
    else if a = c then (a, b) :: rest
    else (c, v) :: Memory.write rest a b

/-- Byte `k` of a word that travels little-endian: bits 8k+7 down to 8k (R64). -/
def byteOf (w : Word) (k : Nat) : Byte := w.extractLsb' (8 * k) 8

/-- One 4-byte access at `off` (R64, R66). -/
def Memory.writeWord (m : Memory) (off : Nat) (w : Word) : Memory :=
  (((m.write off (byteOf w 0)).write (off + 1) (byteOf w 1)).write (off + 2) (byteOf w 2)).write (off + 3)
    (byteOf w 3)

/-- The framebuffer after `word` has been written at each of the offsets in turn. -/
def Memory.paint (word : Word) (offs : List Nat) (m : Memory) : Memory :=
  offs.foldl (fun m off => m.writeWord off word) m

/-- The bytes an offset on `fb_addr` can name: 34 bits (R62). -/
def fbBytes : Nat := 2 ^ 34

/-- The canonical form: addresses strictly rising and within FB, no entry equal to what an unlisted byte reads
as. Equal memories are then equal lists. -/
abbrev Memory.WF (m : Memory) : Prop :=
  m.Pairwise (fun c d => c.1 < d.1) ∧ ∀ c ∈ m, c.1 < fbBytes ∧ some c.2 ≠ Memory.unlisted

/-! ### Port accesses -/

/-- What a request to PLATFORM comes back with. -/
inductive Read (α : Type)
  | value (a : α)
  /-- acknowledged with the error bit -/
  | failed
  /-- never acknowledged (U20) -/
  | silent
  deriving DecidableEq, Repr

/-- The command's port activity grows by one action. -/
def State.note (s : State) (a : PortAction) : State := { s with activity := s.activity ++ [a] }

/-- `PollKey()` (R11, R99): the event polled; with `key_err` the kind and the code are ignored (R244). -/
def pollKey (exitScancode : BitVec 16) : Option KeyAnswer → Read KeyEvent
  | none => .silent
  | some k => if k.err then .failed else .value (keyEvent exitScancode k.kind k.code)

/-- Where the pixel loop of SETPX ends. -/
inductive DrawEnd
  | completed
  | refused
  | silent
  deriving DecidableEq, Repr

/-- The framebuffer and the port activity a pixel loop leaves, and where it ended. -/
structure Drawn where
  fb : Memory
  activity : List PortAction
  finish : DrawEnd
  deriving DecidableEq, Repr

/-- The pixel loop of R122: `word` is written at each offset in turn, each write acknowledged before the next
(R72); `k` counts the writes. The first write that is refused ends the loop (R242): that pixel holds any value
(U12, log 8), the later ones are never issued. -/
def drawPixels (answers : FbAnswers) (word : Word) : Nat → List Nat → Memory → Drawn
  | _, [], fb => { fb := fb, activity := [], finish := .completed }
  | k, off :: rest, fb =>
    match answers.answer k with
    | .refused left => { fb := fb.writeWord off left, activity := [.fbRefused off word], finish := .refused }
    | .silent => { fb := fb, activity := [], finish := .silent }
    | .accepted =>
      let d := drawPixels answers word (k + 1) rest (fb.writeWord off word)
      { d with activity := .fbWrite off word :: d.activity }

/-! ### Response, fatal fault, acceptance, reset -/

/-- `fsm <- READY; respond(status, data)`: the command ends (R11, R217). -/
def State.respond (s : State) (status : Status) (data : Word64) : State :=
  { s with fsm := .ready, resp := some { status := status, data := data } }

/-- `respond(FATAL, zext_64(FCAUSE))`: the answer to every word in HALT (R246). -/
def State.answerFatal (s : State) : State :=
  { s with resp := some { status := .fatal, data := s.fcause.setWidth 64 } }

/-- Fault entry, `raise Fatal(cause)` (R245): if FATAL = 0 then `FCAUSE <- cause`; `FATAL <- 1`; `fsm <- HALT`;
`respond(FATAL, zext_64(FCAUSE))`. What the command has changed stays changed. Nothing is saved and nothing
returns from it; only reset leaves HALT (R247). -/
def State.raiseFatal (s : State) (cause : FatalCause) : State :=
  State.answerFatal
    { s with fcause := if s.fatal then s.fcause else cause.code, fatal := true, fsm := .halt }

/-- The block is halted by a fatal fault: FATAL = 1, or `fsm` = HALT; the two agree at every command boundary
(R27, `State.Inv`). -/
def State.halted (s : State) : Bool := s.fatal || decide (s.fsm = .halt)

/-- A command starts with no port activity of its own yet. -/
def State.fresh (s : State) : State := { s with activity := [] }

/-- A command is accepted and run (R98, R251): in HALT it is answered FATAL whatever it is; otherwise `body` runs it.
Its port activity starts empty. An ill-formed command has no word and is refused (log 12); while `cmd_ready` is 0
no command is accepted (log 11). -/
def runCommand (i : Instr) (s : State) (body : State → Host.Outcome State Fault Refusal) :
    Host.Outcome State Fault Refusal :=
  if i.wellFormed = false then .refused .operandOutsideField
  else if s.halted then .next s.fresh.answerFatal
  else if s.fsm = .ready then body s.fresh
  else .fault .notReady

/-- An illegal command word (R97): no state of the block changes, no port activity starts, the answer is
ILLEGAL with data 0; in HALT the answer is FATAL (R251). -/
def execIllegal (s : State) : Host.Outcome State Fault Refusal :=
  if s.halted then .next s.fresh.answerFatal
  else if s.fsm = .ready then .next (s.fresh.respond .illegal 0)
  else .fault .notReady

/-- `rst` (R280): every element of R20 takes its value of R37 whatever the block was doing; `resp_valid` is 0;
the framebuffer and PLATFORM are not touched (R282, R283). ENTROPY's reset value is unspecified: the count of
bytes drawn goes on, so that later bytes are related to no earlier ones (log 6). -/
def State.rst (s : State) : State :=
  { State.powerOn s.config s.inputs with fb := s.fb, events := s.events, entropy := s.entropy }

end Sys2Proof.Machine
end

