-- ==== Sys2Proof/Machine/Boundary.lean ====
section
/-! DEFINITION. The boundary commands RAND and BEEP (43_entropy_sound.md). -/

namespace Sys2Proof.Machine

/-- RAND (R200): a free byte, zero-extended; ENTROPY advances; no port is touched. -/
def execRand (s : State) : Host.Outcome State Fault Refusal :=
  runCommand .rand s fun s =>
    .next ({ s with entropy := s.entropy + 1 }.respond .ok ((Config.freeByte s.entropy).setWidth 64))

/-- BEEP (R201): the deliberate no-op. -/
def execBeep (s : State) : Host.Outcome State Fault Refusal :=
  runCommand .beep s fun s => .next (s.respond .ok 0)

end Sys2Proof.Machine
end

