-- ==== Sys2Proof/Machine/Display.lean ====
section
/-! DEFINITION. The display scaler: SETPX, GETPX, SETRES, GETRES (40_display.md). -/

namespace Sys2Proof.Machine

/-- SETPX x, y, lit (R122): GRID first, then the cell's pixels in order under the sampled `cfg_*`. A refused
write is Fatal(FB_FAIL) and leaves GRID and the earlier writes (R242). With `rx*ry = 0` there is no pixel and
no write (R127). RI and RJ hold nothing between commands and are folded into the loop here (R29, log 13); they
count in Machine/Sequencer.lean. -/
def execSetpx (x y : Nat) (lit : Bool) (s : State) : Host.Outcome State Fault Refusal :=
  runCommand (.setpx x y lit) s fun s =>
    let d := drawPixels s.inputs.fb (pixelWord lit) 0 (s.inputs.cellOffsets x y) s.fb
    let s := { s with grid := s.grid.setCell x y lit, fb := d.fb, activity := s.activity ++ d.activity }
    match d.finish with
    | .completed => .next (s.respond .ok 0)
    | .refused => .next (s.raiseFatal .fbFail)
    | .silent => .fault .framebufferSilent

/-- GETPX x, y (R123): one grid cell, zero-extended. -/
def execGetpx (x y : Nat) (s : State) : Host.Outcome State Fault Refusal :=
  runCommand (.getpx x y) s fun s => .next (s.respond .ok (boolData (s.grid.cell x y)))

/-- SETRES w, h (R124): bookkeeping only. -/
def execSetres (w h : Nat) (s : State) : Host.Outcome State Fault Refusal :=
  runCommand (.setres w h) s fun s =>
    .next ({ s with lresW := BitVec.ofNat 12 w, lresH := BitVec.ofNat 12 h }.respond .ok 0)

/-- `zext_64({LRES_H, LRES_W})`: bits 23:12 LRES_H, bits 11:0 LRES_W (R125). -/
def resData (w h : BitVec 12) : Word64 := (h ++ w).setWidth 64

/-- GETRES (R125). -/
def execGetres (s : State) : Host.Outcome State Fault Refusal :=
  runCommand .getres s fun s => .next (s.respond .ok (resData s.lresW s.lresH))

end Sys2Proof.Machine
end

