-- ==== Sys2Proof/Machine/Clock.lean ====
section
/-! DEFINITION. The clock unit: the cycle derivation, the calendar-to-epoch converter, `Now()` and TICKS
(42_clock.md). -/

namespace Sys2Proof.Machine

/-- `CycleNow() = cyc div 2` (R171). -/
def cycleNow (cyc : Word64) : Word64 := cyc >>> 1

/-- The number of days from the algorithm's anchor 0000-03-01 to 1970-01-01 (EPOCH_SHIFT, R8). -/
def epochShift : Int := 719468

/-- The year that starts on 1 March (R172). -/
def marchYear (Y M : Int) : Int := Y - (if M ≤ 2 then 1 else 0)

/-- The day of the March-based year, 0..365 for valid fields (R172). -/
def dayOfYear (M D : Int) : Int := (153 * (M + (if M > 2 then -3 else 9)) + 2) / 5 + D - 1

/-- The day of the 400-year era, 0..146096 for valid fields (R172). -/
def dayOfEra (yoe doy : Int) : Int := yoe * 365 + yoe / 4 - yoe / 100 + doy

/-- `DaysFromCivil(Y, M, D)` (R172): days from 1970-01-01, negative for earlier dates, over unbounded integers.
DEDUCED, safe: Lean's `/` on Int rounds toward minus infinity for the positive divisors here, which is R10's `div`
(`Laws.Clock.int_div_is_floor`). -/
def daysFromCivil (Y M D : Int) : Int :=
  let y := marchYear Y M
  let era := y / 400
  let yoe := y - era * 400
  era * 146097 + dayOfEra yoe (dayOfYear M D) - epochShift

/-- The signed nanosecond count of R173, before it is reduced to 64 bits. -/
def CalAnswer.nanos (c : CalAnswer) : Int :=
  daysFromCivil c.year.toInt c.month.toNat c.day.toNat * 86400000000000
    + (c.hour.toNat : Int) * 3600000000000 + (c.minute.toNat : Int) * 60000000000
    + (c.second.toNat : Int) * 1000000000 + (c.nsec.toNat : Int)

/-- `CalendarNow()` of the fields read: the count modulo 2^64 (R173, R174). The fields are not validated (R176). -/
def calendarNow (c : CalAnswer) : Word64 := BitVec.ofInt 64 c.nanos

/-- `Now()` (R170) from the clock inputs: CYCLE mode cannot fail (R171); CALENDAR mode fails when the read is
acknowledged with `cal_err`, whose fields are ignored (R179). -/
def sampleClock (mode : ClockMode) (cyc : Word64) (cal : Option CalAnswer) : Read Word64 :=
  match mode with
  | .cycle => .value (cycleNow cyc)
  | .calendar =>
    match cal with
    | none => .silent
    | some c => if c.err then .failed else .value (calendarNow c)

/-- The port activity of one clock read. -/
def clockAction : ClockMode → PortAction
  | .cycle => .cycleRead
  | .calendar => .calendarRead

/-- `t <- Now()`, then `body t`: a failed read is Fatal(CLK_FAIL) and `body` does not run (R179). -/
def withTime (s : State) (body : Word64 → State → Host.Outcome State Fault Refusal) :
    Host.Outcome State Fault Refusal :=
  match sampleClock s.config.clockMode s.inputs.cyc s.inputs.cal with
  | .value t => body t (s.note (clockAction s.config.clockMode))
  | .failed => .next ((s.note (clockAction s.config.clockMode)).raiseFatal .clkFail)
  | .silent => .fault .calendarSilent

/-- TICKS (R177): one `Now()`; nothing of the keypad decoder changes. -/
def execTicks (s : State) : Host.Outcome State Fault Refusal :=
  runCommand .ticks s fun s => withTime s fun t s => .next (s.respond .ok t)

/-! The domain of the converter (R176). -/

/-- The Gregorian leap-year rule (R176, G3). -/
def leapYear (Y : Int) : Bool := (decide (Y % 4 = 0) && !decide (Y % 100 = 0)) || decide (Y % 400 = 0)

/-- The length of month M in year Y (R176, G3). -/
def monthLength (Y M : Int) : Int :=
  if M = 2 then (if leapYear Y then 29 else 28)
  else if M = 4 ∨ M = 6 ∨ M = 9 ∨ M = 11 then 30
  else 31

/-- A valid date of the proleptic Gregorian calendar (R176). -/
abbrev ValidDate (Y M D : Int) : Prop := 1 ≤ M ∧ M ≤ 12 ∧ 1 ≤ D ∧ D ≤ monthLength Y M

/-- The fields of a calendar read are valid (R176). -/
abbrev CalAnswer.Valid (c : CalAnswer) : Prop :=
  ValidDate c.year.toInt c.month.toNat c.day.toNat ∧ c.hour.toNat ≤ 23 ∧ c.minute.toNat ≤ 59 ∧
    c.second.toNat ≤ 59 ∧ c.nsec.toNat ≤ 999999999

end Sys2Proof.Machine
end

