-- ==== Sys2Proof/Machine/Keypad.lean ====
section
/-! DEFINITION. The keypad decoder: KEYP and the two transitions that STEP applies (41_keypad.md). -/

namespace Sys2Proof.Machine

/-- KEYP idx (R152): it reads KEY_HELD and KEY_CHAR, writes nothing, reads no clock. -/
def execKeyp (idx : Nat) (s : State) : Host.Outcome State Fault Refusal :=
  runCommand (.keyp idx) s fun s => .next (s.respond .ok (boolData (keyMatches s.keyHeld s.keyChar idx)))

/-- `KeyPress(code, t)` (R153), from Idle and from Held alike. -/
def State.keyPress (s : State) (code : BitVec 16) (t : Word64) : State :=
  { s with keyHeld := true, keyChar := code, keyTime := t }

/-- `KeyTimeout(t)` (R154): KEY_HELD is cleared when the window has run out; KEY_CHAR and KEY_TIME stay. -/
def State.keyTimeout (s : State) (t : Word64) : State :=
  if debounceExpired t s.keyTime then { s with keyHeld := false } else s

end Sys2Proof.Machine
end

