-- ==== Sys2Proof/Machine/Pacing.lean ====
section
/-! DEFINITION. The pacing unit: STEP and its stall (44_pacing.md). -/

namespace Sys2Proof.Machine

/-- `Stall()` (R215): STALL_CNT is loaded with STALL_CYCLES and counted down to 0 (R218), and "no state of the
block other than STALL_CNT changes". Of a whole command the stall leaves its length in the port activity; the
counting, cycle by cycle, is in Machine/Sequencer.lean. -/
def State.stall (s : State) : State := { s with stallCnt := 0 }.note (.stall (stallCycles s.config))

/-- The end of STEP's normal path: the stall, then terminate = 0 (R210). -/
def State.finishStep (s : State) : State := s.stall.respond .ok 0

/-- STEP (R210): one key poll; the exit event answers terminate = 1 at once (R212); a printable event is
recorded with the time (R213); otherwise the timeout is evaluated if a key is held (R214). -/
def execStep (s : State) : Host.Outcome State Fault Refusal :=
  runCommand .step s fun s =>
    match pollKey s.config.exitScancode s.inputs.key with
    | .silent => .fault .keyPollSilent
    | .failed => .next ((s.note .keyPoll).raiseFatal .keyFail)
    | .value .exit => .next ((s.note .keyPoll).respond .ok 1)
    | .value (.printable code) =>
      withTime (s.note .keyPoll) fun t s => .next (s.keyPress code t).finishStep
    | .value .other =>
      if s.keyHeld then withTime (s.note .keyPoll) fun t s => .next (s.keyTimeout t).finishStep
      else .next (s.note .keyPoll).finishStep

end Sys2Proof.Machine
end

