-- ==== Sys2Proof/Machine/Dispatch.lean ====
section
/-! DEFINITION. The dispatch: one arm for each constructor of Instr. -/

namespace Sys2Proof.Machine

def exec (i : Instr) (s : State) : Host.Outcome State Fault Refusal :=
  match i with
  | .rand => Sys2Proof.Machine.execRand s
  | .keyp idx => Sys2Proof.Machine.execKeyp idx s
  | .setpx x y lit => Sys2Proof.Machine.execSetpx x y lit s
  | .getpx x y => Sys2Proof.Machine.execGetpx x y s
  | .setres w h => Sys2Proof.Machine.execSetres w h s
  | .getres => Sys2Proof.Machine.execGetres s
  | .ticks => Sys2Proof.Machine.execTicks s
  | .beep => Sys2Proof.Machine.execBeep s
  | .step => Sys2Proof.Machine.execStep s

end Sys2Proof.Machine
end

