-- ==== Sys2Proof/Machine/Step.lean ====
section
/-! DEFINITION. One step of the machine: the next thing the outside does to the block (log 1, 2). -/

namespace Sys2Proof.Machine

/-- A command word is presented and accepted: it is decoded from its own bits (R101) and run, or answered
ILLEGAL (R97). -/
def acceptWord (w : Word) (s : State) : Host.Outcome State Fault Refusal :=
  match decode w with
  | .ok i => exec i s
  | .error _ => execIllegal s

/-- The next pending input is taken from the queue, and `ports` is what PLATFORM presents during it (R11). -/
def State.present (s : State) (ports : Inputs) (rest : List Event) : State :=
  { s with events := rest, inputs := ports }

/-- One step. With nothing pending no state changes (R6). `rst` resets the block (R280). A command word is
accepted with PLATFORM's answers during it on the input ports (R11). -/
def step (s : State) : Host.Outcome State Fault Refusal :=
  match s.events with
  | [] => .next s
  | .reset :: rest => .next (s.present s.inputs rest).rst
  | .command w ports :: rest => acceptWord w (s.present ports rest)

/-- `s` with the word `w` of `nbits` bits as the next command HOST issues, the input ports as they stand (log 2). -/
def State.withFetchWord (s : State) (nbits w : Nat) : State :=
  { s with events := .command (BitVec.ofNat 32 (w % 2 ^ nbits)) s.inputs :: s.events }

end Sys2Proof.Machine
end

