-- ==== Sys2Proof/Machine/Sequencer.lean ====
section
/-! DEFINITION. The block clock cycle by clock cycle: the sequencer FSM of R217, the pixel counters RI and RJ
(R29), the stall counter (R218), the handshakes (R98) and `rst` in the middle of a command (R280). It is the finer
model; `exec` is the whole command (D24), and the two are related by `Obligations.SequencerRunsEveryCommand`. -/

namespace Sys2Proof.Machine

/-- The command in progress with what it has sampled. R20's table has no register for it; DEDUCED, log 16. -/
inductive Job
  /-- no command in progress -/
  | idle
  /-- a SETPX with `cfg_w`, `cfg_h`, `cfg_stride` as sampled at acceptance (R31) -/
  | setpx (x y : Nat) (lit : Bool) (cfgW cfgH cfgStride : BitVec 16)
  /-- a TICKS waiting for its time -/
  | ticks
  /-- a STEP, polling or stalling -/
  | step
  /-- a STEP that polled a printable event and waits for its time -/
  | stepPress (code : BitVec 16)
  /-- a STEP that polled nothing to record, with a key held, and waits for its time -/
  | stepTimeout
  deriving DecidableEq, Repr

/-- The block at a rising edge of `clk`. -/
structure Seq where
  st : State
  job : Job
  /-- `resp_valid`: the response in `st.resp` is given in this cycle -/
  answered : Bool
  deriving DecidableEq, Repr

/-- The input ports in one cycle (R7). An acknowledgement and its answer stand together: `none`, or `silent` for
`fbAck`, is an acknowledge wire at 0. -/
structure PortIn where
  /-- `rst` -/
  rst : Bool
  /-- `cmd`, when `cmd_valid` is 1 -/
  cmd : Option Word
  /-- `cfg_w` -/
  cfgW : BitVec 16
  /-- `cfg_h` -/
  cfgH : BitVec 16
  /-- `cfg_stride` -/
  cfgStride : BitVec 16
  /-- `fb_ack`, `fb_err` -/
  fbAck : FbAck
  /-- `key_ack` with `key_err`, `key_kind`, `key_code` -/
  key : Option KeyAnswer
  /-- `cyc` -/
  cyc : Word64
  /-- `cal_ack` with `cal_err` and the fields -/
  cal : Option CalAnswer
  deriving DecidableEq, Repr

/-- The output ports in one cycle (R7). A value that has no meaning without its valid or request wire stands in
the `some` of that wire. -/
structure PortOut where
  /-- `cmd_ready` -/
  cmdReady : Bool
  /-- `resp_valid` with `resp_status`, `resp_data` -/
  resp : Option Response
  /-- `fb_req` with `fb_addr`, `fb_wdata` -/
  fb : Option (BitVec 34 × Word)
  /-- `key_req` -/
  keyReq : Bool
  /-- `cal_req` -/
  calReq : Bool
  deriving DecidableEq, Repr

/-- The scale transform of sampled dimensions (R120). -/
def sampledScale (cfgW cfgH : BitVec 16) : Scale := scale cfgW.toNat cfgH.toNat

/-- The offset of the pixel RI, RJ of the cell being drawn (R122). -/
def Seq.pixelOff (q : Seq) (x y : Nat) (cfgW cfgH cfgStride : BitVec 16) : Nat :=
  (sampledScale cfgW cfgH).offset cfgStride.toNat x y q.st.ri.toNat q.st.rj.toNat

/-- The output ports (R98, R217); while `rst` is 1, `cmd_ready`, `resp_valid` and all requests are 0 (R280). -/
def Seq.outputs (q : Seq) (rst : Bool) : PortOut :=
  { cmdReady := !rst && (decide (q.st.fsm = .ready) || decide (q.st.fsm = .halt))
    resp := if !rst && q.answered then q.st.resp else none
    fb :=
      match q.st.fsm, q.job with
      | .raster, .setpx x y lit cfgW cfgH cfgStride =>
        if rst then none else some (BitVec.ofNat 34 (q.pixelOff x y cfgW cfgH cfgStride), pixelWord lit)
      | _, _ => none
    keyReq := !rst && decide (q.st.fsm = .poll)
    calReq := !rst && decide (q.st.fsm = .time) && decide (q.st.config.clockMode = .calendar) }

/-- A cycle in which nothing happens: the state stands, and a response that was given is over. -/
def Seq.wait (q : Seq) : Seq := { q with answered := false }

/-- The command in progress ends; its response is given in the next cycle (R98: at least 1 cycle, log 16). -/
def Seq.finish (s : State) : Seq := { st := s, job := .idle, answered := true }

/-- A command goes on in state `fsm` as `job`. -/
def Seq.goTo (s : State) (fsm : Fsm) (job : Job) : Seq :=
  { st := { s with fsm := fsm }, job := job, answered := false }

/-- Entry to STALL: STALL_CNT <- STALL_CYCLES (R217, R218). -/
def Seq.enterStall (s : State) : Seq :=
  Seq.goTo ({ s with stallCnt := BitVec.ofNat 32 (stallCycles s.config) }.note (.stall (stallCycles s.config)))
    .stall .step

/-- A word is accepted in READY or HALT (R217's first six rows and HALT's row). -/
def Seq.accept (q : Seq) (w : Word) (p : PortIn) : Seq :=
  let s := q.st.fresh
  if q.st.halted then Seq.finish s.answerFatal
  else
    match decode w with
    | .error _ => Seq.finish (s.respond .illegal 0)
    | .ok (.setpx x y lit) =>
      let s := { s with grid := s.grid.setCell x y lit }
      let sc := sampledScale p.cfgW p.cfgH
      if sc.rx * sc.ry = 0 then Seq.finish (s.respond .ok 0)
      else Seq.goTo { s with ri := 0, rj := 0 } .raster (.setpx x y lit p.cfgW p.cfgH p.cfgStride)
    | .ok .ticks => Seq.goTo s .time .ticks
    | .ok .step => Seq.goTo s .poll .step
    | .ok i =>
      match exec i q.st with
      | .next t => Seq.finish t
      | .fault _ => q.wait
      | .refused _ => q.wait

/-- A cycle in RASTER (R217): the pixel RI, RJ is presented; on its acknowledgement the counters advance, or the
command ends. RI and RJ are left 0 (log 13). -/
def Seq.rasterCycle (q : Seq) (x y : Nat) (lit : Bool) (cfgW cfgH cfgStride : BitVec 16) (ack : FbAck) : Seq :=
  let s := q.st
  let sc := sampledScale cfgW cfgH
  let off := q.pixelOff x y cfgW cfgH cfgStride
  let word := pixelWord lit
  match ack with
  | .silent => q.wait
  | .refused left =>
    Seq.finish (({ s with fb := s.fb.writeWord off left, ri := 0, rj := 0 }.note (.fbRefused off word)).raiseFatal
      .fbFail)
  | .accepted =>
    let s := { s with fb := s.fb.writeWord off word }.note (.fbWrite off word)
    if s.ri.toNat + 1 < sc.rx then Seq.goTo { s with ri := s.ri + 1 } .raster q.job
    else if s.rj.toNat + 1 < sc.ry then Seq.goTo { s with ri := 0, rj := s.rj + 1 } .raster q.job
    else Seq.finish ({ s with ri := 0, rj := 0 }.respond .ok 0)

/-- A cycle in POLL (R217). -/
def Seq.pollCycle (q : Seq) (key : Option KeyAnswer) : Seq :=
  let s := q.st.note .keyPoll
  match pollKey q.st.config.exitScancode key with
  | .silent => q.wait
  | .failed => Seq.finish (s.raiseFatal .keyFail)
  | .value .exit => Seq.finish (s.respond .ok 1)
  | .value (.printable code) => Seq.goTo s .time (.stepPress code)
  | .value .other => if s.keyHeld then Seq.goTo s .time .stepTimeout else Seq.enterStall s

/-- The time sample `t` is there: the command that waited for it goes on (R217). -/
def Seq.takeTime (q : Seq) (s : State) (t : Word64) : Seq :=
  match q.job with
  | .ticks => Seq.finish (s.respond .ok t)
  | .stepPress code => Seq.enterStall (s.keyPress code t)
  | .stepTimeout => Seq.enterStall (s.keyTimeout t)
  | .idle => q.wait
  | .setpx _ _ _ _ _ _ => q.wait
  | .step => q.wait

/-- A cycle in TIME (R217): in CYCLE mode the sample is there at once, in CALENDAR mode it waits for `cal_ack`. -/
def Seq.timeCycle (q : Seq) (cyc : Word64) (cal : Option CalAnswer) : Seq :=
  let s := q.st.note (clockAction q.st.config.clockMode)
  match sampleClock q.st.config.clockMode cyc cal with
  | .silent => q.wait
  | .failed => Seq.finish (s.raiseFatal .clkFail)
  | .value t => q.takeTime s t

/-- A cycle in STALL (R217, R218). -/
def Seq.stallCycle (q : Seq) : Seq :=
  if q.st.stallCnt = 0 then Seq.finish (q.st.respond .ok 0)
  else { q with st := { q.st with stallCnt := q.st.stallCnt - 1 }, answered := false }

/-- One rising edge of `clk`: every transition of R217. `rst` drops an outstanding request (R280). DESIGN CHOICE,
unsafe (log 21): a pixel whose `fb_req` is dropped stays unwritten, both when no `fb_ack` has come and when `fb_ack` comes
in the very cycle of `rst`, where the acknowledgement and `fb_err` are ignored; the spec leaves open whether that pixel
has reached the framebuffer. -/
def Seq.tick (q : Seq) (p : PortIn) : Seq :=
  if p.rst then { st := q.st.rst, job := .idle, answered := false }
  else
    match q.st.fsm with
    | .ready =>
      match p.cmd with
      | none => q.wait
      | some w => q.accept w p
    | .halt =>
      match p.cmd with
      | none => q.wait
      | some w => q.accept w p
    | .raster =>
      match q.job with
      | .setpx x y lit cfgW cfgH cfgStride => q.rasterCycle x y lit cfgW cfgH cfgStride p.fbAck
      | _ => q.wait
    | .poll => q.pollCycle p.key
    | .time => q.timeCycle p.cyc p.cal
    | .stall => q.stallCycle

/-! A PLATFORM that gives one command's answers at once, in the cycle of each request. -/

/-- How many pixels of the cell being drawn have been written. -/
def Seq.pixelIndex (q : Seq) : Nat :=
  match q.job with
  | .setpx _ _ _ cfgW cfgH _ => q.st.rj.toNat * (sampledScale cfgW cfgH).rx + q.st.ri.toNat
  | _ => 0

/-- The input ports of a cycle in which PLATFORM answers as `ports` says and HOST presents `cmd`. -/
def Seq.portsFor (q : Seq) (ports : Inputs) (cmd : Option Word) : PortIn :=
  { rst := false, cmd := cmd
    cfgW := ports.cfgW, cfgH := ports.cfgH, cfgStride := ports.cfgStride
    fbAck := ports.fb.answer q.pixelIndex
    key := ports.key, cyc := ports.cyc, cal := ports.cal }

/-- `n` cycles with PLATFORM's answers `ports` and no new command. -/
def Seq.run (ports : Inputs) : Nat → Seq → Seq
  | 0, q => q
  | n + 1, q => Seq.run ports n (q.tick (q.portsFor ports none))

/-- The block one cycle after it accepted the word `w` with PLATFORM's answers `ports`, in the state `s` of a
command boundary. -/
def Seq.afterAccept (s : State) (ports : Inputs) (w : Word) : Seq :=
  let q : Seq := { st := s, job := .idle, answered := false }
  q.tick (q.portsFor ports (some w))

end Sys2Proof.Machine
end

