-- ==== Sys2Proof/Safety.lean ====
section
/-! DEFINITION. What a legal state is, when a command is accepted, and how a run ends, in the terms the claims
use. -/

namespace Sys2Proof.Machine

/-- The block executes the next command it is given: `fsm` = READY and no fatal fault has happened (R98, R246). -/
abbrev State.Accepting (s : State) : Prop := s.fsm = .ready ∧ s.fatal = false

/-- The block is halted by a fatal fault and dead until reset (R246). -/
abbrev State.Dead (s : State) : Prop := s.fsm = .halt ∧ s.fatal = true

/-- What holds at every command boundary. -/
structure State.Inv (s : State) : Prop where
  /-- the framebuffer keeps its canonical form -/
  fbCanonical : s.fb.WF
  /-- "`fsm` = READY between commands; ... a fatal fault moves it to HALT for good" (R26) -/
  boundary : s.fsm = .ready ∨ s.fsm = .halt
  /-- "FATAL = 1 exactly when `fsm` = HALT" (R27) -/
  fatalIffHalt : s.fatal = true ↔ s.fsm = .halt
  /-- FCAUSE is a cause code exactly when a fatal fault has happened, 0 = none (R27, R241) -/
  causeIffFatal : s.fcause ≠ 0 ↔ s.fatal = true
  /-- in CYCLE mode no clock read fails (R171, V52) -/
  cycleNeverFails : s.config.clockMode = .cycle → s.fcause ≠ FatalCause.clkFail.code
  /-- the transient counters hold nothing between commands (R29; the value 0 is log 13's) -/
  transientsIdle : s.stallCnt = 0 ∧ s.ri = 0 ∧ s.rj = 0
  /-- the last response is FATAL with the cause when the block is dead (R245, R246) -/
  deadAnswer : s.fatal = true → s.resp = some { status := .fatal, data := s.fcause.setWidth 64 }
  /-- and it is not FATAL otherwise -/
  liveAnswer : s.fatal = false → ∀ r, s.resp = some r → r.status ≠ .fatal

/-- The states agree on every element of the block's own state, R20's table. -/
abbrev State.SameBlock (s t : State) : Prop :=
  t = { s with fb := t.fb, config := t.config, inputs := t.inputs, events := t.events, resp := t.resp,
               activity := t.activity }

/-- `n` steps of the machine, stopping at the first fault or refusal. -/
abbrev runSteps (n : Nat) (s : State) : Host.Outcome State Fault Refusal := Host.Core.run Sys2Proof.core n s

/-- PLATFORM acknowledges everything a command may ask of it (it may still answer with errors). -/
abbrev Inputs.Answering (p : Inputs) (mode : ClockMode) : Prop :=
  p.key ≠ none ∧ (mode = .calendar → p.cal ≠ none) ∧ ∀ k, p.fb.answer k ≠ .silent

/-- A run is faulted in `s` (R222): it has reached FATAL = 1 and has no normal end. -/
abbrev State.Faulted (s : State) : Prop := s.fatal = true

/-- The block right after the release of `rst`, where a run begins (R222, R280): every element that has a reset value
holds it. -/
abbrev State.JustReset (s : State) : Prop :=
  s = { State.powerOn s.config s.inputs with fb := s.fb, events := s.events, entropy := s.entropy }

/-- The step from `s` to `t` is a STEP answered OK with terminate = 1. The first such step of a run ends it
(`RunEndsAt`). -/
def AnswersTerminate (s t : State) : Prop :=
  (∃ w ports rest, s.events = .command w ports :: rest ∧ decode w = .ok .step) ∧
    step s = .next t ∧ t.resp = some { status := .ok, data := 1 }

/-- The run that begins in `s` ends normally at its step `n`, counted from 0, in the end state `t` (R222): no reset cuts
it short, step `n` is a STEP answered OK with terminate = 1, and no earlier step of the run is one. -/
structure RunEndsAt (s : State) (n : Nat) (t : State) : Prop where
  /-- the run begins at the release of `rst` -/
  begins : s.JustReset
  /-- a reset would begin another run -/
  oneRun : Event.reset ∉ s.events.take n
  /-- step `n` answers terminate -/
  ends : ∃ u, runSteps n s = .next u ∧ AnswersTerminate u t
  /-- and it is the first -/
  first : ∀ k < n, ∀ u v, runSteps k s = .next u → ¬ AnswersTerminate u v

/-- A run is stuck in `s` (R222): a platform handshake is never acknowledged. -/
def State.Stuck (s : State) : Prop :=
  step s = .fault .framebufferSilent ∨ step s = .fault .keyPollSilent ∨ step s = .fault .calendarSilent

end Sys2Proof.Machine
end

