-- ==== Sys2Proof/Certificates/Slice0/Obligations.lean ====
section
/-! DEFINITION. The statements for the provers, one `def Obligations.<Name> : Prop` each, from the numbered rules
of the spec. "Accepting" is a block that runs the next command (READY, no fatal fault), "dead" one halted by a fatal
fault. Statements quantify over every state, hence over every parameter (R8), every answer of PLATFORM (R5) and every
free byte (R200). -/

open Sys2Proof Sys2Proof.Machine

/-! ## Encoding -/

/-- Words written out from the patterns of R92 decode to their commands, and the illegal words of R103 are rejected
by name. The bit positions are the spec's decision D9. -/
def Obligations.SpecWordsDecode : Prop :=
  decode 0b00010000000000000000000000000000#32 = .ok .rand ∧
  decode 0b00100000000000000000000011001000#32 = .ok (.keyp 200) ∧
  decode 0b00110000000000010001111100111111#32 = .ok (.setpx 63 31 true) ∧
  decode 0b00110000000000000001010000001010#32 = .ok (.setpx 10 20 false) ∧
  decode 0b01000000000000000001010000001010#32 = .ok (.getpx 10 20) ∧
  decode 0b01010000000000100000000001000000#32 = .ok (.setres 64 32) ∧
  decode 0b01100000000000000000000000000000#32 = .ok .getres ∧
  decode 0b01110000000000000000000000000000#32 = .ok .ticks ∧
  decode 0b10000000000000000000000000000000#32 = .ok .beep ∧
  decode 0b10010000000000000000000000000000#32 = .ok .step ∧
  decode 0x00000000#32 = .error .unassignedOpcode ∧
  decode 0xA0000000#32 = .error .unassignedOpcode ∧
  decode 0x30000040#32 = .error .reservedBits ∧
  decode 0x90000001#32 = .error .reservedBits ∧
  decode 0x51000000#32 = .error .reservedBits

/-- Every well-formed command, with every operand at every value its field admits, is read back from its word
(R92, R93). -/
def Obligations.DecodeReadsBackEveryCommand : Prop :=
  ∀ i : Instr, i.wellFormed = true → decode (encode i) = .ok i

/-- A word that decodes is the word of a well-formed command: no bit of a legal word is dropped, and the fields of R92
bound the operands (R93). -/
def Obligations.LegalWordsAreEncodings : Prop :=
  ∀ (w : Word) (i : Instr), decode w = .ok i → i.wellFormed = true ∧ encode i = w

/-- "A word `c` is the command of a row exactly when `(c AND mask) = match`; the nine rows are pairwise disjoint"
(R92): decoding and the mask-and-match table agree on every word. -/
def Obligations.DecodeFollowsMaskAndMatch : Prop :=
  (∀ (w : Word) (r : Row), r ∈ rows → (r.hits w = true ↔ ∃ i, decode w = .ok i ∧ i.row = r)) ∧
  (∀ (w : Word) (i : Instr), decode w = .ok i → i.row ∈ rows) ∧
  (∀ (w : Word) (r r' : Row), r ∈ rows → r' ∈ rows → r.hits w = true → r'.hits w = true → r = r')

/-- A word is illegal by name exactly as R94 and R95 list: an opcode 0x0 or 0xA..0xF, or a reserved bit of the opcode's
format that is 1 (R94's ranges of bits). -/
def Obligations.IllegalWordsRejectedByName : Prop :=
  (∀ w : Word, decode w = .error .unassignedOpcode ↔ (bits w 31 28 = 0 ∨ 0xA ≤ bits w 31 28)) ∧
  (∀ w : Word, decode w = .error .reservedBits ↔
    (bits w 31 28 = 2 ∧ bits w 27 8 ≠ 0) ∨
    (bits w 31 28 = 3 ∧ (bits w 27 17 ≠ 0 ∨ bits w 15 13 ≠ 0 ∨ bits w 7 6 ≠ 0)) ∨
    (bits w 31 28 = 4 ∧ (bits w 27 13 ≠ 0 ∨ bits w 7 6 ≠ 0)) ∨
    (bits w 31 28 = 5 ∧ bits w 27 24 ≠ 0) ∨
    (bits w 31 28 ∈ [1, 6, 7, 8, 9] ∧ bits w 27 0 ≠ 0))

/-! ## The step -/

/-- A step whose pending word decodes to `i` is `exec i`, with the word taken from the pending inputs and PLATFORM's
answers during it on the input ports; with nothing pending no state changes (R6). The queue is the model's own form
(log 2). -/
def Obligations.StepRunsTheDecodedCommand : Prop :=
  (∀ (s : State) (w : Word) (ports : Inputs) (rest : List Event) (i : Instr),
    s.events = .command w ports :: rest → decode w = .ok i →
      i.wellFormed = true ∧ step s = exec i (s.present ports rest)) ∧
  (∀ s : State, s.events = [] → step s = .next s)

/-- An illegal word is answered ILLEGAL with data 0, changes no state of the block and starts no port activity, and
the block is ready for the next command (R97, R248; the ILLEGAL response is the spec's decision D10). -/
def Obligations.IllegalWordHasNoEffect : Prop :=
  ∀ (s : State) (w : Word) (ports : Inputs) (rest : List Event) (e : Illegal),
    s.Accepting → s.events = .command w ports :: rest → decode w = .error e →
      step s = .next { s with events := rest, inputs := ports, activity := [],
                              resp := some { status := .illegal, data := 0 } }

/-- In a dead block every word, legal or illegal, is answered FATAL with FCAUSE, changes no state and starts no port
activity: the fatal answer comes before the illegal one and before any execution (R246, R251; the spec's decision
D15). -/
def Obligations.DeadBlockAnswersFatal : Prop :=
  (∀ (s : State) (w : Word) (ports : Inputs) (rest : List Event),
    s.Dead → s.events = .command w ports :: rest →
      step s = .next { s with events := rest, inputs := ports, activity := [],
                              resp := some { status := .fatal, data := s.fcause.setWidth 64 } }) ∧
  (∀ (s : State) (i : Instr), s.Dead → i.wellFormed = true →
    exec i s = .next { s with activity := [], resp := some { status := .fatal, data := s.fcause.setWidth 64 } })

/-- R247: from a dead block every run without a reset stays dead, with the first cause, no other state changed and no
port activity; a reset leaves HALT and gives all the block's state its reset value (ENTROPY has none, R37). -/
def Obligations.OnlyResetLeavesHalt : Prop :=
  (∀ (n : Nat) (s : State), s.Dead → Event.reset ∉ s.events.take n →
    ∃ t, runSteps n s = .next t ∧ t.Dead ∧ t.fcause = s.fcause ∧ s.SameBlock t ∧ t.fb = s.fb ∧
      (t.activity = [] ∨ t.activity = s.activity)) ∧
  (∀ (s t : State), s.Dead → step s = .next t → ¬ t.Dead → ∃ rest, s.events = .reset :: rest) ∧
  (∀ (s : State) (rest : List Event), s.events = .reset :: rest →
    ∃ t, step s = .next t ∧
      t = { State.powerOn s.config s.inputs with fb := s.fb, events := rest, entropy := t.entropy })

/-- What reset leaves (R37, R280 to R283), whatever the block was doing: GRID all 0, LRES (0, 0), Idle, READY, no fatal
fault, transients 0, no response; framebuffer and PLATFORM untouched. Most of the values are the spec's decision D16.
R37 gives the framebuffer no contents: that nothing is listed in it at `State.reset` is the model's choice (log 9). -/
def Obligations.ResetLeavesTheSpecifiedValues : Prop :=
  (∀ (s : State) (rest : List Event), s.events = .reset :: rest →
    ∃ t, step s = .next t ∧ (∀ x < 64, ∀ y < 32, t.grid.cell x y = false) ∧ t.lresW = 0 ∧ t.lresH = 0 ∧
      t.keyHeld = false ∧ t.keyChar = 0 ∧ t.keyTime = 0 ∧ t.fsm = .ready ∧ t.fatal = false ∧ t.fcause = 0 ∧
      t.stallCnt = 0 ∧ t.ri = 0 ∧ t.rj = 0 ∧ t.resp = none ∧ t.activity = [] ∧ t.fb = s.fb ∧ t.config = s.config ∧
      t.inputs = s.inputs ∧ t.events = rest) ∧
  (∀ (c : Config) (ports : Inputs) (x y : Nat), (State.powerOn c ports).grid.cell x y = false) ∧
  State.reset.Accepting ∧ State.reset.lresW = 0 ∧ State.reset.lresH = 0 ∧ State.reset.keyHeld = false ∧
  State.reset.keyChar = 0 ∧ State.reset.keyTime = 0 ∧ State.reset.fcause = 0 ∧ State.reset.fb = []

/-! ## Invariants and rules of the whole machine -/

/-- The machine meets its invariant right after reset, in a build with any parameters and any inputs (R37). -/
def Obligations.ResetMeetsInvariant : Prop :=
  (∀ (c : Config) (ports : Inputs), (State.powerOn c ports).Inv) ∧ State.reset.Inv

/-- Every step keeps the invariant of the command boundary: the framebuffer's canonical form within 34-bit offsets
(R62), `fsm` READY or HALT (R26), FATAL = 1 exactly when `fsm` = HALT (R27), a cause exactly when FATAL (R241), no
CLK_FAIL in CYCLE mode (R179), idle transients (R29), and a FATAL answer exactly when dead (R245, R246). -/
def Obligations.StepKeepsInvariant : Prop :=
  ∀ s t : State, s.Inv → step s = .next t → t.Inv

/-- From a legal state, with a PLATFORM that acknowledges everything, every step completes; and a step from a legal
state never refuses and faults only on a request that PLATFORM never acknowledges (U20, R294). -/
def Obligations.LegalStepsComplete : Prop :=
  (∀ s : State, s.Inv → (∀ w ports rest, s.events = .command w ports :: rest → ports.Answering s.config.clockMode) →
    ∃ t, step s = .next t) ∧
  (∀ s : State, s.Inv → (∀ r, step s ≠ .refused r) ∧ step s ≠ .fault .notReady)

/-- Each element of state is written only by the commands R20's table names: GRID and the framebuffer only by SETPX,
LRES only by SETRES, the key record and STALL_CNT only by STEP, ENTROPY only by RAND; `fsm`, FATAL and FCAUSE change
only where a fatal fault is raised, in SETPX, TICKS or STEP (R241); no command touches the parameters, the input ports or
the pending inputs. A SETPX, completed or refused, changes no other cell of GRID and no byte of the framebuffer outside
the cell's pixels; a STEP leaves STALL_CNT 0 where it stalled and as it was elsewhere. This is the frame of every command.
R20's table has SETPX write RI and RJ: that of a whole command they are left as they were, and that a stall leaves
STALL_CNT 0, is the model's choice (log 13). -/
def Obligations.StateWrittenOnlyByItsCommands : Prop :=
  ∀ (i : Instr) (s t : State), exec i s = .next t →
    ((∀ x y lit, i ≠ .setpx x y lit) → t.grid = s.grid ∧ t.fb = s.fb ∧ ∀ a, t.fb.read a = s.fb.read a) ∧
    (∀ x y lit, i = .setpx x y lit →
      (∀ x' y', ¬(x' = x ∧ y' = y) → t.grid.cell x' y' = s.grid.cell x' y') ∧
      (∀ a, (∀ off ∈ s.inputs.cellOffsets x y, ¬(off ≤ a ∧ a < off + 4)) → t.fb.read a = s.fb.read a)) ∧
    ((∀ w h, i ≠ .setres w h) → t.lresW = s.lresW ∧ t.lresH = s.lresH) ∧
    (i ≠ .step → t.keyHeld = s.keyHeld ∧ t.keyChar = s.keyChar ∧ t.keyTime = s.keyTime ∧ t.stallCnt = s.stallCnt) ∧
    (i = .step → t.stallCnt = if t.resp = some { status := .ok, data := 0 } then 0 else s.stallCnt) ∧
    (i ≠ .rand → t.entropy = s.entropy) ∧
    ((∀ x y lit, i ≠ .setpx x y lit) → i ≠ .ticks → i ≠ .step →
      t.fsm = s.fsm ∧ t.fatal = s.fatal ∧ t.fcause = s.fcause) ∧
    t.ri = s.ri ∧ t.rj = s.rj ∧ t.config = s.config ∧ t.inputs = s.inputs ∧ t.events = s.events

/-- "A GETPX returns the value of the latest SETPX to that cell in command order, or 0 if there was none since reset"
(R72): after any run of steps with no reset in it that has met no fatal fault, each cell of GRID holds what the latest
SETPX of the run left there, or what it held before. -/
def Obligations.GridHoldsTheLatestWrites : Prop :=
  ∀ (n : Nat) (s t : State) (x y : Nat), x < 64 → y < 32 → s.Inv → runSteps n s = .next t → t.fatal = false →
    Event.reset ∉ s.events.take n →
    t.grid.cell x y = (s.events.take n).foldl (fun b e =>
      match e with
      | .command w _ =>
        match decode w with
        | .ok (.setpx x' y' lit) => if x' = x ∧ y' = y then lit else b
        | _ => b
      | .reset => b) (s.grid.cell x y)

/-! ## Display -/

/-- SETPX x, y, lit: its word (R92; the places of the fields are the spec's decision D9). With all its pixel writes
accepted it completes with OK: GRID[y][x] = lit and no other cell changes; the
blue, green and red bytes of every pixel of the cell hold 0xFF if lit and 0x00 if not; every byte of the framebuffer
outside the cell's pixels is unchanged, and so is all other state (R77, R122, R126). The offsets are R78's
`4*((ys + y*ry + j)*STRIDE + xs + x*rx + i)`. -/
def Obligations.SetpxDrawsTheCell : Prop :=
  (∀ (x y : Nat) (lit : Bool), x < 64 → y < 32 →
    (encode (.setpx x y lit)).toNat = 0x3 * 2 ^ 28 + lit.toNat * 2 ^ 16 + y * 2 ^ 8 + x) ∧
  (∀ (x y : Nat) (lit : Bool) (s : State), x < 64 → y < 32 → s.Accepting →
    (∀ k < s.inputs.scale.rx * s.inputs.scale.ry, s.inputs.fb.answer k = .accepted) →
    ∃ t, exec (.setpx x y lit) s = .next t ∧
      t.resp = some { status := .ok, data := 0 } ∧
      (∀ x' y', t.grid.cell x' y' = if x' = x ∧ y' = y then lit else s.grid.cell x' y') ∧
      (∀ i < s.inputs.scale.rx, ∀ j < s.inputs.scale.ry, ∀ b < 3,
        t.fb.read (4 * ((s.inputs.scale.ys + y * s.inputs.scale.ry + j) * s.inputs.cfgStride.toNat
            + (s.inputs.scale.xs + x * s.inputs.scale.rx + i)) + b) = some (if lit then 0xFF#8 else 0x00#8)) ∧
      (∀ a, (∀ i < s.inputs.scale.rx, ∀ j < s.inputs.scale.ry,
          ¬(s.inputs.scale.offset s.inputs.cfgStride.toNat x y i j ≤ a ∧
            a < s.inputs.scale.offset s.inputs.cfgStride.toNat x y i j + 4)) → t.fb.read a = s.fb.read a) ∧
      t = { s with grid := t.grid, fb := t.fb, resp := t.resp, activity := t.activity })

/-- The pixel writes of a SETPX whose writes are all accepted: exactly `rx*ry`, rows top to bottom and pixels left to
right, all of one word, WHITE or BLACK (R67, R122). The order is the spec's decision D13, the X byte of the word its
decision D8 (log 7, 17). -/
def Obligations.SetpxWritesRowByRow : Prop :=
  ∀ (x y : Nat) (lit : Bool) (s : State), x < 64 → y < 32 → s.Accepting →
    (∀ k < s.inputs.scale.rx * s.inputs.scale.ry, s.inputs.fb.answer k = .accepted) →
    exec (.setpx x y lit) s = .next
      { s with
        grid := s.grid.setCell x y lit
        fb := s.fb.paint (if lit then 0x00FFFFFF#32 else 0x00000000#32) (s.inputs.cellOffsets x y)
        resp := some { status := .ok, data := 0 }
        activity := (s.inputs.cellOffsets x y).map (.fbWrite · (if lit then 0x00FFFFFF#32 else 0x00000000#32)) } ∧
    (s.inputs.cellOffsets x y).length = s.inputs.scale.rx * s.inputs.scale.ry ∧
    ∀ j < s.inputs.scale.ry, ∀ i < s.inputs.scale.rx,
      (s.inputs.cellOffsets x y)[j * s.inputs.scale.rx + i]? =
        some (4 * ((s.inputs.scale.ys + y * s.inputs.scale.ry + j) * s.inputs.cfgStride.toNat
          + (s.inputs.scale.xs + x * s.inputs.scale.rx + i)))

/-- `rx = 0` exactly when `W < 128`, `ry = 0` exactly when `H < 64`; then SETPX writes GRID, issues no pixel write
and answers OK, whatever PLATFORM would answer to a write (R127, V51). -/
def Obligations.ZeroScaleDrawsNothing : Prop :=
  (∀ W H : Nat, ((scale W H).rx = 0 ↔ W < 128) ∧ ((scale W H).ry = 0 ↔ H < 64)) ∧
  (∀ (x y : Nat) (lit : Bool) (s : State), x < 64 → y < 32 → s.Accepting →
    (s.inputs.cfgW.toNat < 128 ∨ s.inputs.cfgH.toNat < 64) →
    exec (.setpx x y lit) s = .next
      { s with grid := s.grid.setCell x y lit, resp := some { status := .ok, data := 0 }, activity := [] })

/-- FB_FAIL (R242, R245): when PLATFORM refuses the write numbered `k` from 0, GRID has been written, the writes before
it have been performed, write `k` was presented and refused and leaves any value in its pixel (U12, log 8), the
later ones are never issued; FATAL = 1, FCAUSE = 1, HALT, response FATAL with data 1. The codes are the spec's decision
D15. Which writes come before write `k` is the row-major order, the spec's decision D13 (log 17), and the whole pixel
word with its X byte 0x00 is its decision D8 (log 7). -/
def Obligations.RefusedPixelWriteIsFatal : Prop :=
  ∀ (x y : Nat) (lit : Bool) (s : State) (k : Nat) (left : Word), x < 64 → y < 32 → s.Accepting →
    k < s.inputs.scale.rx * s.inputs.scale.ry → s.inputs.fb = .refusedAt k left →
    ∃ off, (s.inputs.cellOffsets x y)[k]? = some off ∧
      exec (.setpx x y lit) s = .next
        { s with
          grid := s.grid.setCell x y lit
          fb := (s.fb.paint (pixelWord lit) ((s.inputs.cellOffsets x y).take k)).writeWord off left
          fsm := .halt, fatal := true, fcause := 1
          resp := some { status := .fatal, data := 1 }
          activity := ((s.inputs.cellOffsets x y).take k).map (.fbWrite · (pixelWord lit))
            ++ [.fbRefused off (pixelWord lit)] }

/-- Repeating a SETPX with the same operands and ports repeats the same writes and leaves GRID and FB as they were
(R68). -/
def Obligations.SetpxTwiceIsOnce : Prop :=
  ∀ (x y : Nat) (lit : Bool) (s t : State), s.Accepting → s.fb.WF →
    exec (.setpx x y lit) s = .next t → t.fatal = false →
    ∃ u, exec (.setpx x y lit) t = .next u ∧ u = t

/-- "`getPixel(x,y)` after `setPixel(x,y,v)` returns `v`", and every other cell reads as it did (R72, R123, S1). -/
def Obligations.GetpxReadsTheLatestSetpx : Prop :=
  ∀ (x y x' y' : Nat) (lit : Bool) (s t : State), x' < 64 → y' < 32 → s.Accepting →
    exec (.setpx x y lit) s = .next t → t.fatal = false →
    ∃ u, exec (.getpx x' y') t = .next u ∧
      u.resp = some { status := .ok, data := if (x' = x ∧ y' = y) then (if lit then 1 else 0)
                                             else (if s.grid.cell x' y' then 1 else 0) }

/-- R123, GETPX x, y: its word; OK with the grid cell zero-extended and nothing else changed, whatever the framebuffer,
the ports and LRES hold; 0 as long as no SETPX to the cell has run since reset; a SETPX has changed the cell even if it
ended in a fatal fault, but then GETPX, like every command, is answered FATAL. -/
def Obligations.GetpxReturnsTheCell : Prop :=
  (∀ x y : Nat, x < 64 → y < 32 → (encode (.getpx x y)).toNat = 0x4 * 2 ^ 28 + y * 2 ^ 8 + x) ∧
  (∀ (x y : Nat) (s : State), x < 64 → y < 32 → s.Accepting →
    exec (.getpx x y) s = .next
      { s with resp := some { status := .ok, data := if s.grid.cell x y then 1 else 0 }, activity := [] }) ∧
  (∀ (n : Nat) (c : Config) (ports : Inputs) (coming : List Event) (t : State) (x y : Nat), x < 64 → y < 32 →
    runSteps n { State.powerOn c ports with events := coming } = .next t → t.fatal = false →
    (∀ e ∈ coming.take n, ∃ w p, e = .command w p ∧ ∀ lit, decode w ≠ .ok (.setpx x y lit)) →
    ∃ u, exec (.getpx x y) t = .next u ∧ u.resp = some { status := .ok, data := 0 }) ∧
  (∀ (x y : Nat) (lit : Bool) (s t : State), s.Accepting → exec (.setpx x y lit) s = .next t →
    t.grid.cell x y = lit) ∧
  (∀ (x y : Nat) (s : State), x < 64 → y < 32 → s.Dead →
    exec (.getpx x y) s = .next
      { s with resp := some { status := .fatal, data := s.fcause.setWidth 64 }, activity := [] })

/-- R124, SETRES w, h: its word; LRES_W <- w, LRES_H <- h for every pair, OK with data 0, and nothing else changes:
GRID is not resized, cleared or redrawn. -/
def Obligations.SetresStoresTheResolution : Prop :=
  (∀ w h : Nat, w < 4096 → h < 4096 → (encode (.setres w h)).toNat = 0x5 * 2 ^ 28 + h * 2 ^ 12 + w) ∧
  (∀ (w h : Nat) (s : State), w < 4096 → h < 4096 → s.Accepting →
    ∃ t, exec (.setres w h) s = .next t ∧ t.lresW.toNat = w ∧ t.lresH.toNat = h ∧
      t = { s with lresW := t.lresW, lresH := t.lresH, resp := some { status := .ok, data := 0 }, activity := [] })

/-- R125, GETRES: its word; OK with bits 11:0 LRES_W, bits 23:12 LRES_H, bits 63:24 zero, and nothing else changed; 0
as long as no SETRES has run since reset. -/
def Obligations.GetresReturnsTheResolution : Prop :=
  encode .getres = 0x60000000#32 ∧
  (∀ s : State, s.Accepting →
    ∃ t, exec .getres s = .next t ∧
      (∃ d, t.resp = some { status := .ok, data := d } ∧
        d.toNat = s.lresH.toNat * 2 ^ 12 + s.lresW.toNat) ∧
      t = { s with resp := t.resp, activity := [] }) ∧
  (∀ (n : Nat) (c : Config) (ports : Inputs) (coming : List Event) (t : State),
    runSteps n { State.powerOn c ports with events := coming } = .next t → t.fatal = false →
    (∀ e ∈ coming.take n, ∃ word p, e = .command word p ∧ ∀ w h, decode word ≠ .ok (.setres w h)) →
    ∃ u, exec .getres t = .next u ∧ u.resp = some { status := .ok, data := 0 })

/-- The geometry of the scale transform (R129): (a) the canvas covers at most half of each axis; (b) every pixel of every
cell lies on the display; (c) different cells share no pixel; (d) the right and bottom margins equal the left and
top ones or exceed them by 1; (e) with `STRIDE ≥ W` different pixels have different offsets. -/
def Obligations.ScaleGeometry : Prop :=
  ∀ W H : Nat,
    (64 * (scale W H).rx ≤ W / 2 ∧ 32 * (scale W H).ry ≤ H / 2) ∧
    ((scale W H).xs + 64 * (scale W H).rx ≤ W ∧ (scale W H).ys + 32 * (scale W H).ry ≤ H) ∧
    (∀ x < 64, ∀ y < 32, ∀ i < (scale W H).rx, ∀ j < (scale W H).ry,
      (scale W H).px x i ≤ W - 1 ∧ (scale W H).py y j ≤ H - 1 ∧
      (∀ x' < 64, ∀ y' < 32, ∀ i' < (scale W H).rx, ∀ j' < (scale W H).ry,
        (scale W H).px x i = (scale W H).px x' i' → (scale W H).py y j = (scale W H).py y' j' →
          x = x' ∧ y = y' ∧ i = i' ∧ j = j')) ∧
    ((W - 64 * (scale W H).rx - (scale W H).xs = (scale W H).xs ∨
        W - 64 * (scale W H).rx - (scale W H).xs = (scale W H).xs + 1) ∧
      (H - 32 * (scale W H).ry - (scale W H).ys = (scale W H).ys ∨
        H - 32 * (scale W H).ry - (scale W H).ys = (scale W H).ys + 1)) ∧
    (∀ stride px py px' py' : Nat, W ≤ stride → px < W → px' < W →
      pixelOffset stride px py = pixelOffset stride px' py' → px = px' ∧ py = py')

/-- Every offset SETPX forms, for any 16-bit `cfg_w`, `cfg_h`, `cfg_stride`, is a multiple of 4 and its four bytes
lie below 2^34: no offset computation wraps and no access is misaligned (R62, R65). -/
def Obligations.PixelOffsetsFitThePort : Prop :=
  ∀ (ports : Inputs) (x y : Nat), x < 64 → y < 32 → ∀ off ∈ ports.cellOffsets x y, off % 4 = 0 ∧ off + 4 ≤ 2 ^ 34

/-- With `STRIDE ≥ W` every offset SETPX forms stays inside a framebuffer of `4 * STRIDE * H` bytes (R69). -/
def Obligations.PixelOffsetsStayInTheFramebuffer : Prop :=
  ∀ (ports : Inputs) (x y : Nat), x < 64 → y < 32 → ports.cfgW.toNat ≤ ports.cfgStride.toNat →
    ∀ off ∈ ports.cellOffsets x y, off + 4 ≤ 4 * ports.cfgStride.toNat * ports.cfgH.toNat

/-- R128: LRES plays no part in rasterisation. SETPX in two states that differ in LRES only does the same to
everything else; so a SETRES before a SETPX changes nothing of what the SETPX does but the LRES it leaves. -/
def Obligations.LresPlaysNoPart : Prop :=
  (∀ (x y : Nat) (lit : Bool) (s t : State) (a b : BitVec 12),
    exec (.setpx x y lit) s = .next t →
      exec (.setpx x y lit) { s with lresW := a, lresH := b } = .next { t with lresW := a, lresH := b }) ∧
  (∀ (x y w h : Nat) (lit : Bool) (s t : State), w < 4096 → h < 4096 → s.Accepting →
    exec (.setpx x y lit) s = .next t →
    ∃ u, exec (.setres w h) s = .next u ∧
      exec (.setpx x y lit) u = .next { t with lresW := u.lresW, lresH := u.lresH })

/-! ## Keypad -/

/-- R152, KEYP idx, for every `idx` 0..255: its word; OK with 1 exactly when a key is held, `idx ≤ 15` and KEY_CHAR =
KEYMAP[idx], else 0; nothing else changes, no port is touched. -/
def Obligations.KeypAnswersTheHeldKey : Prop :=
  (∀ idx : Nat, idx < 256 → (encode (.keyp idx)).toNat = 0x2 * 2 ^ 28 + idx) ∧
  (∀ (idx : Nat) (s : State), idx < 256 → s.Accepting →
    ∃ d : Word64, exec (.keyp idx) s = .next { s with resp := some { status := .ok, data := d }, activity := [] } ∧
      (d = 0 ∨ d = 1) ∧
      (d = 1 ↔ s.keyHeld = true ∧ idx ≤ 15 ∧
        [0x0078#16, 0x0031#16, 0x0032#16, 0x0033#16, 0x0071#16, 0x0077#16, 0x0065#16, 0x0061#16, 0x0073#16,
         0x0064#16, 0x007A#16, 0x0063#16, 0x0034#16, 0x0065#16, 0x0064#16, 0x0063#16][idx]? = some s.keyChar))

/-- The collisions of the key table (R151): in every state KEYP answers 6 and 0xD alike, 9 and 0xE alike, 0xB and
0xF alike, and no other two indices have the same character. -/
def Obligations.KeyTableCollisions : Prop :=
  (∀ (s : State) (p : Nat × Nat), s.Accepting → p ∈ [(0x6, 0xD), (0x9, 0xE), (0xB, 0xF)] →
    exec (.keyp p.1) s = exec (.keyp p.2) s ∧ ∃ t, exec (.keyp p.1) s = .next t) ∧
  (∀ i < 16, ∀ j < 16, i < j → keymap[i]? = keymap[j]? → (i, j) ∈ [(0x6, 0xD), (0x9, 0xE), (0xB, 0xF)])

/-- The complete transition table of the keypad decoder, per STEP (R156): with the poll answered by the event `ev`, and
where a time is needed the clock sample `v`, STEP completes and leaves the key record as the table's row says. The
table is the spec's derivation from R153 to R155; that no time is needed in Idle without a printable event is its
decision D17. -/
def Obligations.KeyRecordTransitions : Prop :=
  ∀ (s : State) (k : KeyAnswer) (ev : KeyEvent) (v : Word64), s.Accepting →
    s.inputs.key = some k → k.err = false → keyEvent s.config.exitScancode k.kind k.code = ev →
    ((∃ code, ev = .printable code) ∨ (ev = .other ∧ s.keyHeld = true) →
      sampleClock s.config.clockMode s.inputs.cyc s.inputs.cal = .value v) →
    ∃ t, exec .step s = .next t ∧
      (t.keyHeld, t.keyChar, t.keyTime) =
        match ev with
        | .exit => (s.keyHeld, s.keyChar, s.keyTime)
        | .printable code => (true, code, v)
        | .other => (s.keyHeld && decide ((v - s.keyTime).toNat ≤ 200000000), s.keyChar, s.keyTime)

/-- R155: an exit event changes nothing in the keypad decoder, in Idle and in Held, and STEP answers OK. -/
def Obligations.ExitEventKeepsTheKeyRecord : Prop :=
  ∀ (s : State) (code : BitVec 16), s.Accepting →
    s.inputs.key = some { err := false, kind := 1, code := code } → code = s.config.exitScancode →
    ∃ t, exec .step s = .next t ∧ t.keyHeld = s.keyHeld ∧ t.keyChar = s.keyChar ∧ t.keyTime = s.keyTime ∧
      t.resp = some { status := .ok, data := 1 }

/-- R158: the debounce window is evaluated only at steps. A held key stays held, with its record, over any run without a
fatal fault or reset in which every STEP polls no event (or a special event that is not the exit event) and samples a
time within 200 000 000 units of the press, however many other commands run; a STEP that polls no event and samples a
later time releases it, and then every KEYP answers 0. -/
def Obligations.HeldKeyLastsTheDebounceWindow : Prop :=
  (∀ (n : Nat) (s t : State), s.Inv → s.keyHeld = true → runSteps n s = .next t → t.fatal = false →
    (∀ e ∈ s.events.take n, ∃ w ports, e = .command w ports ∧ (decode w = .ok .step →
      ∃ k v, ports.key = some k ∧ keyEvent s.config.exitScancode k.kind k.code = .other ∧
        sampleClock s.config.clockMode ports.cyc ports.cal = .value v ∧ (v - s.keyTime).toNat ≤ 200000000)) →
    t.keyHeld = true ∧ t.keyChar = s.keyChar ∧ t.keyTime = s.keyTime ∧
      ∀ idx < 256, ∃ u, exec (.keyp idx) t = .next u ∧
        u.resp = some { status := .ok, data := if (idx ≤ 15 ∧ keymap[idx]? = some s.keyChar) then 1 else 0 }) ∧
  (∀ (s : State) (k : KeyAnswer) (v : Word64), s.Accepting → s.keyHeld = true → s.inputs.key = some k →
    k.err = false → keyEvent s.config.exitScancode k.kind k.code = .other →
    sampleClock s.config.clockMode s.inputs.cyc s.inputs.cal = .value v → 200000000 < (v - s.keyTime).toNat →
    ∃ t, exec .step s = .next t ∧ t.keyHeld = false ∧
      ∀ idx < 256, ∃ u, exec (.keyp idx) t = .next u ∧ u.resp = some { status := .ok, data := 0 })

/-! ## Clock -/

/-- R171, TICKS in CYCLE mode: OK with `cyc div 2`, which is below 2^63, whatever the calendar port answers; nothing
else changes. -/
def Obligations.TicksCountsHalfCycles : Prop :=
  ∀ s : State, s.Accepting → s.config.clockMode = .cycle →
    ∃ d : Word64, exec .ticks s = .next
        { s with resp := some { status := .ok, data := d }, activity := [.cycleRead] } ∧
      d.toNat = s.inputs.cyc.toNat / 2 ∧ d.toNat < 2 ^ 63

/-- TICKS in CALENDAR mode (R173): one calendar read; with the fields acknowledged without error, OK with days, hours,
minutes, seconds and nanoseconds since 1970-01-01 as one nanosecond count modulo 2^64; on `cal_err` Fatal(CLK_FAIL). For valid fields the spec asks this value; that invalid
fields go through the same formula is the spec's own decision D11 (U5, log 18). -/
def Obligations.TicksReadsTheCalendar : Prop :=
  ∀ (s : State) (c : CalAnswer), s.Accepting → s.config.clockMode = .calendar → s.inputs.cal = some c →
    (c.err = false → exec .ticks s = .next
      { s with
        resp := some (Response.mk .ok (BitVec.ofInt 64
          (daysFromCivil c.year.toInt c.month.toNat c.day.toNat * 86400000000000 + c.hour.toNat * 3600000000000
            + c.minute.toNat * 60000000000 + c.second.toNat * 1000000000 + c.nsec.toNat)))
        activity := [.calendarRead] }) ∧
    (c.err = true → ∃ t, exec .ticks s = .next t ∧ t.fatal = true ∧ t.fcause = FatalCause.clkFail.code)

/-- R179: in CALENDAR mode a calendar read acknowledged with `cal_err` raises Fatal(CLK_FAIL) in the TICKS or the STEP
that asked for it, whatever fields it carries, and no other state of the block changes; in CYCLE mode no clock read
fails. -/
def Obligations.ClockFailureIsFatal : Prop :=
  (∀ (s : State) (c : CalAnswer), s.Accepting → s.config.clockMode = .calendar → s.inputs.cal = some c →
    c.err = true →
    exec .ticks s = .next
      { s with fsm := .halt, fatal := true, fcause := FatalCause.clkFail.code
               resp := some { status := .fatal, data := FatalCause.clkFail.code.setWidth 64 }
               activity := [.calendarRead] } ∧
    (∀ k, s.inputs.key = some k → k.err = false →
      (∃ code, keyEvent s.config.exitScancode k.kind k.code = .printable code) ∨
        (keyEvent s.config.exitScancode k.kind k.code = .other ∧ s.keyHeld = true) →
      exec .step s = .next
        { s with fsm := .halt, fatal := true, fcause := FatalCause.clkFail.code
                 resp := some { status := .fatal, data := FatalCause.clkFail.code.setWidth 64 }
                 activity := [.keyPoll, .calendarRead] })) ∧
  (∀ (cyc : Word64) (cal : Option CalAnswer), ∃ v, sampleClock .cycle cyc cal = .value v)

/-- DaysFromCivil counts the days of the proleptic Gregorian calendar exactly, for every year, including years before
0 and leap years: 1970-01-01 is day 0, and the day after any valid date is one more, over the ends of months and years
(R172, R175, R176). The formula's `doe` line and the leap-year rule are the spec's, from general knowledge (G2, G3). -/
def Obligations.DaysFromCivilCountsDays : Prop :=
  daysFromCivil 1970 1 1 = 0 ∧
  ∀ Y M D : Int, ValidDate Y M D →
    (D < monthLength Y M → daysFromCivil Y M (D + 1) = daysFromCivil Y M D + 1) ∧
    (D = monthLength Y M → M < 12 → daysFromCivil Y (M + 1) 1 = daysFromCivil Y M D + 1) ∧
    (D = monthLength Y M → M = 12 → daysFromCivil (Y + 1) 1 1 = daysFromCivil Y M D + 1)

/-- The intermediate values of the day count have the ranges R172 notes, for every valid date: year of era 0..399, day of
year 0..365, day of era 0..146096 (R172, R175). -/
def Obligations.CivilIntermediateRanges : Prop :=
  ∀ Y M D : Int, ValidDate Y M D →
    (0 ≤ marchYear Y M - marchYear Y M / 400 * 400 ∧ marchYear Y M - marchYear Y M / 400 * 400 ≤ 399) ∧
    (0 ≤ dayOfYear M D ∧ dayOfYear M D ≤ 365) ∧
    (0 ≤ dayOfEra (marchYear Y M - marchYear Y M / 400 * 400) (dayOfYear M D) ∧
      dayOfEra (marchYear Y M - marchYear Y M / 400 * 400) (dayOfYear M D) ≤ 146096)

/-- Reduction modulo 2^64 keeps differences right (R174): the wrapped difference of two calendar samples is the
difference of their unreduced nanosecond counts, whenever that is 0..2^64-1, before 1970 and after 2554 too. For valid
fields that is the true number of nanoseconds between them; that invalid fields have the formula's count is the spec's
own decision D11 (U5, log 18). -/
def Obligations.CalendarDifferencesAreExact : Prop :=
  ∀ c d : CalAnswer, 0 ≤ c.nanos - d.nanos → c.nanos - d.nanos < 2 ^ 64 →
    ((wsub64 (calendarNow c) (calendarNow d)).toNat : Int) = c.nanos - d.nanos

/-! ## Boundary commands -/

/-- RAND yields a free byte, zero-extended, for whatever byte the entropy source gives; ENTROPY advances and nothing
else changes, no port is touched (R200, the spec's decision D25; the form of ENTROPY is the model's, log 6). -/
def Obligations.RandYieldsAFreeByte : Prop :=
  ∀ s : State, s.Accepting →
    ∃ b : Byte, exec .rand s = .next
      { s with entropy := s.entropy + 1, resp := some { status := .ok, data := b.setWidth 64 }, activity := [] }

/-- R201, BEEP: its word; OK with data 0 and the whole state of the block as before; FATAL in a dead block; ILLEGAL with
any reserved bit set. -/
def Obligations.BeepDoesNothing : Prop :=
  encode .beep = 0x80000000#32 ∧
  (∀ s : State, s.Accepting →
    exec .beep s = .next { s with resp := some { status := .ok, data := 0 }, activity := [] }) ∧
  (∀ s : State, s.Dead →
    exec .beep s = .next
      { s with resp := some { status := .fatal, data := s.fcause.setWidth 64 }, activity := [] }) ∧
  (∀ w : Word, bits w 31 28 = 8 → bits w 27 0 ≠ 0 → decode w = .error .reservedBits)

/-! ## Pacing -/

/-- R216: `resp_data` bit 0 of a STEP is 1 exactly on the exit path: a STEP that completes without a fatal fault answers
OK with 1 if the event was the exit event, and OK with 0 otherwise. -/
def Obligations.TerminateExactlyOnExit : Prop :=
  ∀ (s t : State), s.Accepting → exec .step s = .next t → t.fatal = false →
    ∃ k, s.inputs.key = some k ∧
      t.resp = some { status := .ok, data := if k.kind = 1 ∧ k.code = s.config.exitScancode then 1 else 0 }

/-- The exit path of STEP (R212): OK with 1, no clock read, no stall, and the whole state of the block as before. That
the stall is skipped is the spec's derivation. -/
def Obligations.StepExitPath : Prop :=
  ∀ (s : State) (k : KeyAnswer), s.Accepting → s.inputs.key = some k → k.err = false → k.kind = 1 →
    k.code = s.config.exitScancode →
    exec .step s = .next { s with resp := some { status := .ok, data := 1 }, activity := [.keyPoll] }

/-- The printable path of STEP (R213): any character is recorded with the step's clock sample, in Idle and in Held, even
if the old record had expired; then the stall, then terminate = 0; nothing else changes. When the clock is sampled is
the spec's decision D17 (R211), the length of the stall its decision D14 (R215), and that a whole command leaves STALL_CNT
0 is the model's choice (log 13). -/
def Obligations.StepPrintablePath : Prop :=
  ∀ (s : State) (k : KeyAnswer) (v : Word64), s.Accepting → s.inputs.key = some k → k.err = false → k.kind = 2 →
    sampleClock s.config.clockMode s.inputs.cyc s.inputs.cal = .value v →
    exec .step s = .next
      { s with
        keyHeld := true, keyChar := k.code, keyTime := v, stallCnt := 0
        resp := some { status := .ok, data := 0 }
        activity := [.keyPoll, clockAction s.config.clockMode, .stall (s.config.clkHz / 600)] }

/-- The "otherwise" path of STEP (R214): no event, a special event that is not the exit event and the reserved kind 3
are handled alike; in Held the timeout is evaluated on the step's clock sample, strictly above 200 000 000 on the
wrapped difference; then the stall, then terminate = 0; nothing else changes. That in Idle no clock is read, so that the
STEP completes whatever the clock would answer, is the spec's decision D17 (R211), the length of the stall its decision
D14 (R215), and that a whole command leaves STALL_CNT 0 is the model's choice (log 13). -/
def Obligations.StepOtherwisePath : Prop :=
  ∀ (s : State) (k : KeyAnswer), s.Accepting → s.inputs.key = some k → k.err = false →
    (k.kind = 0 ∨ (k.kind = 1 ∧ k.code ≠ s.config.exitScancode) ∨ k.kind = 3) →
    (s.keyHeld = false → exec .step s = .next
      { s with stallCnt := 0, resp := some { status := .ok, data := 0 }
               activity := [.keyPoll, .stall (s.config.clkHz / 600)] }) ∧
    (s.keyHeld = true → ∀ v, sampleClock s.config.clockMode s.inputs.cyc s.inputs.cal = .value v →
      exec .step s = .next
        { s with
          keyHeld := decide ((v - s.keyTime).toNat ≤ 200000000), stallCnt := 0
          resp := some { status := .ok, data := 0 }
          activity := [.keyPoll, clockAction s.config.clockMode, .stall (s.config.clkHz / 600)] })

/-- R244: a key poll acknowledged with `key_err` raises Fatal(KEY_FAIL), whatever kind and code it carries; no clock
read, no record change and no stall follow. -/
def Obligations.KeyPollFailureIsFatal : Prop :=
  ∀ (s : State) (k : KeyAnswer), s.Accepting → s.inputs.key = some k → k.err = true →
    exec .step s = .next
      { s with fsm := .halt, fatal := true, fcause := FatalCause.keyFail.code
               resp := some { status := .fatal, data := FatalCause.keyFail.code.setWidth 64 }
               activity := [.keyPoll] }

/-- The port activity of one STEP (R211), failed or not: exactly one key poll; then a clock read exactly on the
printable path and on the otherwise path in Held; then a stall exactly when terminate is not answered and nothing failed.
When the clock is sampled is the spec's decision D17, the length of the stall its decision D14. -/
def Obligations.StepPortActivity : Prop :=
  ∀ (s t : State), s.Accepting → exec .step s = .next t →
    ∃ k, s.inputs.key = some k ∧
      t.activity =
        [.keyPoll] ++
        (if k.err = false ∧ ((k.kind = 2) ∨
              (s.keyHeld = true ∧ ¬(k.kind = 1 ∧ k.code = s.config.exitScancode)))
          then [clockAction s.config.clockMode] else []) ++
        (if t.fatal = false ∧ ¬(k.kind = 1 ∧ k.code = s.config.exitScancode)
          then [.stall (s.config.clkHz / 600)] else [])

/-- A STEP that answers terminate = 1, the first of a run (R222) or a later one (R219), leaves the block in the state it
had before that STEP, READY and without a fatal fault. What a normal end is, is the spec's decision D23. -/
def Obligations.NormalEndKeepsTheBlock : Prop :=
  ∀ s t : State, s.Inv → AnswersTerminate s t → s.SameBlock t ∧ t.fb = s.fb ∧ t.Accepting

/-! ## Stops -/

/-- When a command stops because PLATFORM never acknowledges a request, so that it never completes (U20, R294): STEP
without an answer to its poll; in CALENDAR mode, TICKS without an answer to its read, and STEP without one where it
reads the clock, on a printable event and on the otherwise path with a key held; SETPX without an answer to one of its
pixel writes. The form of the stop, a named fault, is the model's (log 10). -/
def Obligations.SilentPlatformStops : Prop :=
  (∀ s : State, s.Accepting → s.inputs.key = none → exec .step s = .fault .keyPollSilent) ∧
  (∀ s : State, s.Accepting → s.config.clockMode = .calendar → s.inputs.cal = none →
    exec .ticks s = .fault .calendarSilent) ∧
  (∀ (s : State) (k : KeyAnswer), s.Accepting → s.config.clockMode = .calendar → s.inputs.cal = none →
    s.inputs.key = some k → k.err = false →
    (∃ code, keyEvent s.config.exitScancode k.kind k.code = .printable code) ∨
      (keyEvent s.config.exitScancode k.kind k.code = .other ∧ s.keyHeld = true) →
    exec .step s = .fault .calendarSilent) ∧
  (∀ (x y : Nat) (lit : Bool) (s : State) (k : Nat), x < 64 → y < 32 → s.Accepting →
    k < s.inputs.scale.rx * s.inputs.scale.ry → s.inputs.fb = .silentAt k →
    exec (.setpx x y lit) s = .fault .framebufferSilent)

/-! ## The cycle-level sequencer -/

/-- The sequencer of R217, clocked with a PLATFORM that gives the command's answers, runs every command to the state
and the response that `exec` gives, from every legal state; in HALT too. That the whole command and the cycles agree
is the spec's D24; the registers that hold the command in progress are the model's (log 16). -/
def Obligations.SequencerRunsEveryCommand : Prop :=
  ∀ (i : Instr) (s t : State), i.wellFormed = true → s.Inv → exec i s = .next t →
    ∃ n, Seq.run s.inputs n (Seq.afterAccept s s.inputs (encode i)) = { st := t, job := .idle, answered := true }

/-- Where `exec` stops because PLATFORM never acknowledges, the sequencer waits for ever: it never gives a response
(R98, R294, U20). -/
def Obligations.SequencerWaitsForEverOnSilence : Prop :=
  ∀ (i : Instr) (s : State) (f : Fault), i.wellFormed = true → s.Inv → exec i s = .fault f →
    ∀ n, (Seq.run s.inputs n (Seq.afterAccept s s.inputs (encode i))).answered = false

/-- The handshakes (R98): a cycle without the acknowledgement that the sequencer waits for changes nothing, and the
requests stand; while a command is in progress no word on `cmd` is accepted; `cmd_ready` is 1 exactly in READY and HALT.
The handshakes are the spec's decision D1. -/
def Obligations.SequencerHoldsUntilAcknowledged : Prop :=
  (∀ (q : Seq) (p : PortIn), p.rst = false →
    ((q.st.fsm = .ready ∨ q.st.fsm = .halt) ∧ p.cmd = none) ∨ (q.st.fsm = .raster ∧ p.fbAck = .silent) ∨
      (q.st.fsm = .poll ∧ p.key = none) ∨
      (q.st.fsm = .time ∧ q.st.config.clockMode = .calendar ∧ p.cal = none) →
    (q.tick p).st = q.st ∧ (q.tick p).job = q.job ∧ ((q.tick p).outputs false).fb = (q.outputs false).fb ∧
      ((q.tick p).outputs false).keyReq = (q.outputs false).keyReq ∧
      ((q.tick p).outputs false).calReq = (q.outputs false).calReq ∧ ((q.tick p).outputs false).resp = none) ∧
  (∀ (q : Seq) (p : PortIn) (c : Option Word), q.st.fsm ≠ .ready → q.st.fsm ≠ .halt →
    q.tick { p with cmd := c } = q.tick p) ∧
  (∀ q : Seq, (q.outputs false).cmdReady = true ↔ q.st.fsm = .ready ∨ q.st.fsm = .halt)

/-- The stall counter (R218): entry loads STALL_CNT with `CLK_HZ div 600`, which fits for every `CLK_HZ` below 600·2^32;
every cycle in STALL decrements it; the block leaves STALL in the cycle in which it is 0, with the response of STEP's
normal path, and nothing else of the state changes. STALL_CNT's form is the spec's decision D14. -/
def Obligations.StallLastsItsCycles : Prop :=
  (∀ s : State, s.config.StallFits →
    (Seq.enterStall s).st.fsm = .stall ∧ (Seq.enterStall s).st.stallCnt.toNat = s.config.clkHz / 600) ∧
  (∀ (ports : Inputs) (q : Seq), q.st.fsm = .stall →
    (∀ k, 0 < k → k ≤ q.st.stallCnt.toNat →
      Seq.run ports k q = { st := { q.st with stallCnt := q.st.stallCnt - BitVec.ofNat 32 k }, job := q.job,
                            answered := false }) ∧
    Seq.run ports (q.st.stallCnt.toNat + 1) q =
      { st := { q.st with stallCnt := 0, fsm := .ready, resp := some { status := .ok, data := 0 } }, job := .idle,
        answered := true })

/-- `rst` in any cycle, whatever the block was doing (R280): the command in progress is abandoned without a response,
every element that has a reset value takes it (R37), a stall is cut short, HALT is left, outstanding requests are
dropped; while `rst` is 1, `cmd_ready`, `resp_valid` and all requests are 0; the framebuffer is not touched. Polarity and
synchrony are the spec's decision D16. ENTROPY has no reset value: that its count goes on is the model's choice (log 6).
That a pixel whose request is dropped stays unwritten, even with `fb_ack` in the cycle of `rst`, is the model's choice
too (log 21). -/
def Obligations.ResetAbandonsTheCommand : Prop :=
  ∀ (q : Seq) (p : PortIn), p.rst = true →
    q.tick p = { st := { State.powerOn q.st.config q.st.inputs with
                           fb := q.st.fb, events := q.st.events, entropy := q.st.entropy },
                 job := .idle, answered := false } ∧
    q.outputs true = { cmdReady := false, resp := none, fb := none, keyReq := false, calReq := false } ∧
    (q.tick p).outputs false = { cmdReady := true, resp := none, fb := none, keyReq := false, calReq := false }

/-! ## Cause codes -/

/-- The cause codes of R241, as FCAUSE records them and as the FATAL response carries them: 1 after a refused pixel
write, 2 after a failed calendar read in TICKS or in STEP, 3 after a failed key poll. The numbering is the spec's
decision D15. -/
def Obligations.FatalCausesAreNumbered : Prop :=
  (∀ (x y : Nat) (lit : Bool) (s t : State), s.Accepting → exec (.setpx x y lit) s = .next t → t.fatal = true →
    t.fcause = 1 ∧ t.resp = some { status := .fatal, data := 1 }) ∧
  (∀ (s : State) (c : CalAnswer), s.Accepting → s.config.clockMode = .calendar → s.inputs.cal = some c →
    c.err = true →
    (∃ t, exec .ticks s = .next t ∧ t.fatal = true ∧ t.fcause = 2 ∧
      t.resp = some { status := .fatal, data := 2 }) ∧
    (∀ k, s.inputs.key = some k → k.err = false →
      (∃ code, keyEvent s.config.exitScancode k.kind k.code = .printable code) ∨
        (keyEvent s.config.exitScancode k.kind k.code = .other ∧ s.keyHeld = true) →
      ∃ t, exec .step s = .next t ∧ t.fatal = true ∧ t.fcause = 2 ∧
        t.resp = some { status := .fatal, data := 2 })) ∧
  (∀ (s : State) (k : KeyAnswer), s.Accepting → s.inputs.key = some k → k.err = true →
    ∃ t, exec .step s = .next t ∧ t.fatal = true ∧ t.fcause = 3 ∧ t.resp = some { status := .fatal, data := 3 })

/-! ## The end of a run -/

/-- The end of a run (R222): a run in which a STEP answers terminate = 1 ends normally, at the first such STEP and nowhere
else; its end state is the block's state before that STEP, READY and without a fatal fault, so that later commands still
run; and a run that is faulted or stuck has no normal end from there on. What a normal end is, is the spec's decision
D23. -/
def Obligations.RunEndsAtTheFirstTerminate : Prop :=
  (∀ (s u t : State) (n : Nat), s.JustReset → Event.reset ∉ s.events.take n → runSteps n s = .next u →
    AnswersTerminate u t → ∃ m ≤ n, ∃ t', RunEndsAt s m t') ∧
  (∀ (s t t' : State) (n m : Nat), RunEndsAt s n t → RunEndsAt s m t' → n = m ∧ t = t') ∧
  (∀ (s t : State) (n : Nat), s.fb.WF → RunEndsAt s n t →
    ∃ u, runSteps n s = .next u ∧ u.SameBlock t ∧ t.fb = u.fb ∧ t.Accepting) ∧
  (∀ (s u t : State) (n k : Nat), s.fb.WF → runSteps k s = .next u → u.Faulted ∨ u.Stuck → k ≤ n →
    ¬ RunEndsAt s n t)
end

