-- ==== Sys2Proof/Laws/Clock.lean ====
section
/-! SUPPORT. The division of the calendar converter is floor division (R10, R175). -/

namespace Sys2Proof.Laws.Clock

/-- Lean's `/` on Int is floor division for a positive divisor, which is what R10's `div` asks. -/
theorem int_div_is_floor (a : Int) {b : Int} (h : 0 < b) : a / b = Int.fdiv a b :=
  (Int.fdiv_eq_ediv_of_nonneg a (Int.le_of_lt h)).symm

/-- `a mod b = a − b*(a div b)` of R10 lies in 0..b-1 for a positive divisor. -/
theorem int_mod_range (a : Int) {b : Int} (h : 0 < b) : 0 ≤ a - b * (a / b) ∧ a - b * (a / b) < b := by
  have h1 := Int.emod_def a b
  have h2 := Int.emod_nonneg a (ne_of_gt h)
  have h3 := Int.emod_lt_of_pos a h
  omega

end Sys2Proof.Laws.Clock
end

