-- ==== Sys2Proof/Laws/Memory.lean ====
section
/-! SUPPORT. The grid and the framebuffer: read after write, and that every memory operation keeps the canonical
form. -/

namespace Sys2Proof.Machine

/-! ### GRID -/

theorem Grid.cell_setCell (g : Grid) {x y : Nat} (x' y' : Nat) (b : Bool) (hx : x < 64) (hy : y < 32) :
    (g.setCell x y b).cell x' y' = if x' = x ∧ y' = y then b else g.cell x' y' := by
  unfold Grid.cell Grid.setCell
  by_cases h1 : y' = y
  · subst h1
    by_cases h2 : x' = x
    · simp [*]
    · simp [*, Ne.symm h2]
  · simp [*, Ne.symm h1]

/-- Two grids with the same cells are the same grid. -/
theorem Grid.ext_cell {g h : Grid} (H : ∀ x < 64, ∀ y < 32, g.cell x y = h.cell x y) : g = h := by
  ext y hy x hx
  simpa [Grid.cell, hx, hy] using H x hx y hy

@[simp] theorem Grid.cell_blank (x y : Nat) :
    Grid.cell (Vector.replicate 32 (Vector.replicate 64 false)) x y = false := by
  unfold Grid.cell
  simp only [Vector.getElem?_replicate]
  split
  · simp only [Option.bind_some, Vector.getElem?_replicate]; split <;> rfl
  · rfl

/-! ### FB -/

@[simp] theorem Memory.read_nil (a : Nat) : Memory.read [] a = none := rfl

theorem Memory.read_write (m : Memory) (a : Nat) (b : Byte) (a' : Nat) :
    (m.write a b).read a' = if a' = a then some b else m.read a' := by
  induction m with
  | nil => simp [Memory.write, Memory.read, Memory.unlisted]
  | cons c rest ih =>
    obtain ⟨c, v⟩ := c
    simp only [Memory.write]
    split
    · simp [Memory.read]
    · split
      · subst_vars; simp only [Memory.read]; split <;> rfl
      · simp only [Memory.read, ih]; split <;> split <;> simp_all

/-- A written byte is the new one, or one that was there. -/
theorem Memory.mem_write {m : Memory} {a : Nat} {b : Byte} {c : Host.Cell} (h : c ∈ m.write a b) :
    c = (a, b) ∨ c ∈ m := by
  induction m with
  | nil => simpa [Memory.write] using h
  | cons d rest ih =>
    obtain ⟨d, v⟩ := d
    simp only [Memory.write] at h
    split at h
    · simpa using h
    · split at h
      · simp only [List.mem_cons] at h ⊢; tauto
      · simp only [List.mem_cons] at h ⊢; tauto

/-- One byte written below the end of FB keeps the canonical form. -/
theorem Memory.WF.write {m : Memory} (h : m.WF) {a : Nat} (b : Byte) (ha : a < fbBytes) : (m.write a b).WF := by
  refine ⟨?_, fun c hc => ?_⟩
  · obtain ⟨hs, -⟩ := h
    induction m with
    | nil => simp [Memory.write]
    | cons d rest ih =>
      obtain ⟨d, v⟩ := d
      rw [List.pairwise_cons] at hs
      simp only [Memory.write]
      split
      · rename_i h1
        refine List.pairwise_cons.2 ⟨fun e he => ?_, List.pairwise_cons.2 hs⟩
        rcases List.mem_cons.1 he with rfl | he
        · exact h1
        · exact lt_trans h1 (hs.1 e he)
      · split
        · subst_vars; exact List.pairwise_cons.2 hs
        · refine List.pairwise_cons.2 ⟨fun e he => ?_, ih hs.2⟩
          rcases Memory.mem_write he with rfl | he
          · simp only at *; omega
          · exact hs.1 e he
  · rcases Memory.mem_write hc with rfl | hc
    · exact ⟨ha, by simp [Memory.unlisted]⟩
    · exact h.2 c hc

/-- One pixel written below the end of FB keeps the canonical form. -/
theorem Memory.WF.writeWord {m : Memory} (h : m.WF) {off : Nat} (w : Word) (ho : off + 3 < fbBytes) :
    (m.writeWord off w).WF :=
  (((h.write _ (by omega)).write _ (by omega)).write _ (by omega)).write _ ho

theorem Memory.read_writeWord (m : Memory) (off : Nat) (w : Word) (a : Nat) :
    (m.writeWord off w).read a =
      if off ≤ a ∧ a < off + 4 then some (byteOf w (a - off)) else m.read a := by
  simp only [Memory.writeWord, Memory.read_write]
  by_cases h : off ≤ a ∧ a < off + 4
  · obtain ⟨k, rfl⟩ := Nat.exists_eq_add_of_le h.1
    have : k = 0 ∨ k = 1 ∨ k = 2 ∨ k = 3 := by omega
    rcases this with rfl | rfl | rfl | rfl <;> simp
  · simp only [h, if_false]
    split; omega
    split; omega
    split; omega
    split; omega
    rfl

/-- Canonical memories that read the same everywhere are equal. -/
theorem Memory.WF.ext {m n : Memory} (hm : m.WF) (hn : n.WF) (H : ∀ a, m.read a = n.read a) : m = n := by
  have key : ∀ (m : Memory) (a : Nat), (∀ c ∈ m, a < c.1) → m.read a = none := by
    intro m a h
    induction m with
    | nil => rfl
    | cons c rest ih =>
      have := h c (by simp)
      simp only [Memory.read]
      rw [if_neg (by omega)]
      exact ih fun d hd => h d (by simp [hd])
  induction m generalizing n with
  | nil =>
    cases n with
    | nil => rfl
    | cons c rest => have := H c.1; simp [Memory.read, Memory.unlisted] at this
  | cons c rest ih =>
    cases n with
    | nil => have := H c.1; simp [Memory.read, Memory.unlisted] at this
    | cons d rest' =>
      have h1 := List.pairwise_cons.1 hm.1
      have h2 := List.pairwise_cons.1 hn.1
      have hcd : c.1 = d.1 := by
        rcases lt_trichotomy c.1 d.1 with h | h | h
        · have := H c.1
          rw [key (d :: rest') c.1 (by
            intro e he; rcases List.mem_cons.1 he with rfl | he
            · exact h
            · exact lt_trans h (h2.1 e he))] at this
          simp [Memory.read] at this
        · exact h
        · have := H d.1
          rw [key (c :: rest) d.1 (by
            intro e he; rcases List.mem_cons.1 he with rfl | he
            · exact h
            · exact lt_trans h (h1.1 e he))] at this
          simp [Memory.read] at this
      have hv : c.2 = d.2 := by
        have := H c.1
        simpa [Memory.read, hcd] using this
      have hc : c = d := Prod.ext hcd hv
      subst hc
      congr 1
      refine ih ⟨h1.2, fun e he => hm.2 e (by simp [he])⟩ ⟨h2.2, fun e he => hn.2 e (by simp [he])⟩ fun a => ?_
      by_cases ha : a = c.1
      · subst ha; rw [key rest _ h1.1, key rest' _ h2.1]
      · simpa [Memory.read, ha] using H a

end Sys2Proof.Machine
end

