-- ==== Sys2Proof/Laws/State.lean ====
section
/-! SUPPORT. One lemma for each field of State under each named update, so that no proof unfolds a record update. -/

namespace Sys2Proof.Machine

variable (s : State)

/-! ### State.note -/

@[simp] theorem State.note_grid (a : PortAction) : (s.note a).grid = s.grid := rfl
@[simp] theorem State.note_lresW (a : PortAction) : (s.note a).lresW = s.lresW := rfl
@[simp] theorem State.note_lresH (a : PortAction) : (s.note a).lresH = s.lresH := rfl
@[simp] theorem State.note_keyHeld (a : PortAction) : (s.note a).keyHeld = s.keyHeld := rfl
@[simp] theorem State.note_keyChar (a : PortAction) : (s.note a).keyChar = s.keyChar := rfl
@[simp] theorem State.note_keyTime (a : PortAction) : (s.note a).keyTime = s.keyTime := rfl
@[simp] theorem State.note_fsm (a : PortAction) : (s.note a).fsm = s.fsm := rfl
@[simp] theorem State.note_fatal (a : PortAction) : (s.note a).fatal = s.fatal := rfl
@[simp] theorem State.note_fcause (a : PortAction) : (s.note a).fcause = s.fcause := rfl
@[simp] theorem State.note_stallCnt (a : PortAction) : (s.note a).stallCnt = s.stallCnt := rfl
@[simp] theorem State.note_ri (a : PortAction) : (s.note a).ri = s.ri := rfl
@[simp] theorem State.note_rj (a : PortAction) : (s.note a).rj = s.rj := rfl
@[simp] theorem State.note_entropy (a : PortAction) : (s.note a).entropy = s.entropy := rfl
@[simp] theorem State.note_fb (a : PortAction) : (s.note a).fb = s.fb := rfl
@[simp] theorem State.note_config (a : PortAction) : (s.note a).config = s.config := rfl
@[simp] theorem State.note_inputs (a : PortAction) : (s.note a).inputs = s.inputs := rfl
@[simp] theorem State.note_events (a : PortAction) : (s.note a).events = s.events := rfl
@[simp] theorem State.note_resp (a : PortAction) : (s.note a).resp = s.resp := rfl
@[simp] theorem State.note_activity (a : PortAction) : (s.note a).activity = s.activity ++ [a] := rfl

/-! ### State.respond -/

@[simp] theorem State.respond_grid (st : Status) (d : Word64) : (s.respond st d).grid = s.grid := rfl
@[simp] theorem State.respond_lresW (st : Status) (d : Word64) : (s.respond st d).lresW = s.lresW := rfl
@[simp] theorem State.respond_lresH (st : Status) (d : Word64) : (s.respond st d).lresH = s.lresH := rfl
@[simp] theorem State.respond_keyHeld (st : Status) (d : Word64) : (s.respond st d).keyHeld = s.keyHeld := rfl
@[simp] theorem State.respond_keyChar (st : Status) (d : Word64) : (s.respond st d).keyChar = s.keyChar := rfl
@[simp] theorem State.respond_keyTime (st : Status) (d : Word64) : (s.respond st d).keyTime = s.keyTime := rfl
@[simp] theorem State.respond_fsm (st : Status) (d : Word64) : (s.respond st d).fsm = .ready := rfl
@[simp] theorem State.respond_fatal (st : Status) (d : Word64) : (s.respond st d).fatal = s.fatal := rfl
@[simp] theorem State.respond_fcause (st : Status) (d : Word64) : (s.respond st d).fcause = s.fcause := rfl
@[simp] theorem State.respond_stallCnt (st : Status) (d : Word64) : (s.respond st d).stallCnt = s.stallCnt := rfl
@[simp] theorem State.respond_ri (st : Status) (d : Word64) : (s.respond st d).ri = s.ri := rfl
@[simp] theorem State.respond_rj (st : Status) (d : Word64) : (s.respond st d).rj = s.rj := rfl
@[simp] theorem State.respond_entropy (st : Status) (d : Word64) : (s.respond st d).entropy = s.entropy := rfl
@[simp] theorem State.respond_fb (st : Status) (d : Word64) : (s.respond st d).fb = s.fb := rfl
@[simp] theorem State.respond_config (st : Status) (d : Word64) : (s.respond st d).config = s.config := rfl
@[simp] theorem State.respond_inputs (st : Status) (d : Word64) : (s.respond st d).inputs = s.inputs := rfl
@[simp] theorem State.respond_events (st : Status) (d : Word64) : (s.respond st d).events = s.events := rfl
@[simp] theorem State.respond_resp (st : Status) (d : Word64) :
    (s.respond st d).resp = some { status := st, data := d } := rfl
@[simp] theorem State.respond_activity (st : Status) (d : Word64) : (s.respond st d).activity = s.activity := rfl

/-! ### State.answerFatal -/

@[simp] theorem State.answerFatal_grid : (s.answerFatal).grid = s.grid := rfl
@[simp] theorem State.answerFatal_lresW : (s.answerFatal).lresW = s.lresW := rfl
@[simp] theorem State.answerFatal_lresH : (s.answerFatal).lresH = s.lresH := rfl
@[simp] theorem State.answerFatal_keyHeld : (s.answerFatal).keyHeld = s.keyHeld := rfl
@[simp] theorem State.answerFatal_keyChar : (s.answerFatal).keyChar = s.keyChar := rfl
@[simp] theorem State.answerFatal_keyTime : (s.answerFatal).keyTime = s.keyTime := rfl
@[simp] theorem State.answerFatal_fsm : (s.answerFatal).fsm = s.fsm := rfl
@[simp] theorem State.answerFatal_fatal : (s.answerFatal).fatal = s.fatal := rfl
@[simp] theorem State.answerFatal_fcause : (s.answerFatal).fcause = s.fcause := rfl
@[simp] theorem State.answerFatal_stallCnt : (s.answerFatal).stallCnt = s.stallCnt := rfl
@[simp] theorem State.answerFatal_ri : (s.answerFatal).ri = s.ri := rfl
@[simp] theorem State.answerFatal_rj : (s.answerFatal).rj = s.rj := rfl
@[simp] theorem State.answerFatal_entropy : (s.answerFatal).entropy = s.entropy := rfl
@[simp] theorem State.answerFatal_fb : (s.answerFatal).fb = s.fb := rfl
@[simp] theorem State.answerFatal_config : (s.answerFatal).config = s.config := rfl
@[simp] theorem State.answerFatal_inputs : (s.answerFatal).inputs = s.inputs := rfl
@[simp] theorem State.answerFatal_events : (s.answerFatal).events = s.events := rfl
@[simp] theorem State.answerFatal_resp :
    (s.answerFatal).resp = some { status := .fatal, data := s.fcause.setWidth 64 } := rfl
@[simp] theorem State.answerFatal_activity : (s.answerFatal).activity = s.activity := rfl

/-! ### State.raiseFatal -/

@[simp] theorem State.raiseFatal_grid (c : FatalCause) : (s.raiseFatal c).grid = s.grid := rfl
@[simp] theorem State.raiseFatal_lresW (c : FatalCause) : (s.raiseFatal c).lresW = s.lresW := rfl
@[simp] theorem State.raiseFatal_lresH (c : FatalCause) : (s.raiseFatal c).lresH = s.lresH := rfl
@[simp] theorem State.raiseFatal_keyHeld (c : FatalCause) : (s.raiseFatal c).keyHeld = s.keyHeld := rfl
@[simp] theorem State.raiseFatal_keyChar (c : FatalCause) : (s.raiseFatal c).keyChar = s.keyChar := rfl
@[simp] theorem State.raiseFatal_keyTime (c : FatalCause) : (s.raiseFatal c).keyTime = s.keyTime := rfl
@[simp] theorem State.raiseFatal_fsm (c : FatalCause) : (s.raiseFatal c).fsm = .halt := rfl
@[simp] theorem State.raiseFatal_fatal (c : FatalCause) : (s.raiseFatal c).fatal = true := rfl
@[simp] theorem State.raiseFatal_fcause (c : FatalCause) :
    (s.raiseFatal c).fcause = if s.fatal then s.fcause else c.code := rfl
@[simp] theorem State.raiseFatal_stallCnt (c : FatalCause) : (s.raiseFatal c).stallCnt = s.stallCnt := rfl
@[simp] theorem State.raiseFatal_ri (c : FatalCause) : (s.raiseFatal c).ri = s.ri := rfl
@[simp] theorem State.raiseFatal_rj (c : FatalCause) : (s.raiseFatal c).rj = s.rj := rfl
@[simp] theorem State.raiseFatal_entropy (c : FatalCause) : (s.raiseFatal c).entropy = s.entropy := rfl
@[simp] theorem State.raiseFatal_fb (c : FatalCause) : (s.raiseFatal c).fb = s.fb := rfl
@[simp] theorem State.raiseFatal_config (c : FatalCause) : (s.raiseFatal c).config = s.config := rfl
@[simp] theorem State.raiseFatal_inputs (c : FatalCause) : (s.raiseFatal c).inputs = s.inputs := rfl
@[simp] theorem State.raiseFatal_events (c : FatalCause) : (s.raiseFatal c).events = s.events := rfl
@[simp] theorem State.raiseFatal_resp (c : FatalCause) :
    (s.raiseFatal c).resp = some { status := .fatal, data := (if s.fatal then s.fcause else c.code).setWidth 64 } := rfl
@[simp] theorem State.raiseFatal_activity (c : FatalCause) : (s.raiseFatal c).activity = s.activity := rfl

/-! ### State.keyPress -/

@[simp] theorem State.keyPress_grid (k : BitVec 16) (t : Word64) : (s.keyPress k t).grid = s.grid := rfl
@[simp] theorem State.keyPress_lresW (k : BitVec 16) (t : Word64) : (s.keyPress k t).lresW = s.lresW := rfl
@[simp] theorem State.keyPress_lresH (k : BitVec 16) (t : Word64) : (s.keyPress k t).lresH = s.lresH := rfl
@[simp] theorem State.keyPress_keyHeld (k : BitVec 16) (t : Word64) : (s.keyPress k t).keyHeld = true := rfl
@[simp] theorem State.keyPress_keyChar (k : BitVec 16) (t : Word64) : (s.keyPress k t).keyChar = k := rfl
@[simp] theorem State.keyPress_keyTime (k : BitVec 16) (t : Word64) : (s.keyPress k t).keyTime = t := rfl
@[simp] theorem State.keyPress_fsm (k : BitVec 16) (t : Word64) : (s.keyPress k t).fsm = s.fsm := rfl
@[simp] theorem State.keyPress_fatal (k : BitVec 16) (t : Word64) : (s.keyPress k t).fatal = s.fatal := rfl
@[simp] theorem State.keyPress_fcause (k : BitVec 16) (t : Word64) : (s.keyPress k t).fcause = s.fcause := rfl
@[simp] theorem State.keyPress_stallCnt (k : BitVec 16) (t : Word64) : (s.keyPress k t).stallCnt = s.stallCnt := rfl
@[simp] theorem State.keyPress_ri (k : BitVec 16) (t : Word64) : (s.keyPress k t).ri = s.ri := rfl
@[simp] theorem State.keyPress_rj (k : BitVec 16) (t : Word64) : (s.keyPress k t).rj = s.rj := rfl
@[simp] theorem State.keyPress_entropy (k : BitVec 16) (t : Word64) : (s.keyPress k t).entropy = s.entropy := rfl
@[simp] theorem State.keyPress_fb (k : BitVec 16) (t : Word64) : (s.keyPress k t).fb = s.fb := rfl
@[simp] theorem State.keyPress_config (k : BitVec 16) (t : Word64) : (s.keyPress k t).config = s.config := rfl
@[simp] theorem State.keyPress_inputs (k : BitVec 16) (t : Word64) : (s.keyPress k t).inputs = s.inputs := rfl
@[simp] theorem State.keyPress_events (k : BitVec 16) (t : Word64) : (s.keyPress k t).events = s.events := rfl
@[simp] theorem State.keyPress_resp (k : BitVec 16) (t : Word64) : (s.keyPress k t).resp = s.resp := rfl
@[simp] theorem State.keyPress_activity (k : BitVec 16) (t : Word64) : (s.keyPress k t).activity = s.activity := rfl

/-! ### State.keyTimeout -/

@[simp] theorem State.keyTimeout_grid (t : Word64) : (s.keyTimeout t).grid = s.grid := by
  unfold State.keyTimeout; split <;> rfl
@[simp] theorem State.keyTimeout_lresW (t : Word64) : (s.keyTimeout t).lresW = s.lresW := by
  unfold State.keyTimeout; split <;> rfl
@[simp] theorem State.keyTimeout_lresH (t : Word64) : (s.keyTimeout t).lresH = s.lresH := by
  unfold State.keyTimeout; split <;> rfl
@[simp] theorem State.keyTimeout_keyHeld (t : Word64) :
    (s.keyTimeout t).keyHeld = (s.keyHeld && !debounceExpired t s.keyTime) := by
  unfold State.keyTimeout; cases h : debounceExpired t s.keyTime <;> simp
@[simp] theorem State.keyTimeout_keyChar (t : Word64) : (s.keyTimeout t).keyChar = s.keyChar := by
  unfold State.keyTimeout; split <;> rfl
@[simp] theorem State.keyTimeout_keyTime (t : Word64) : (s.keyTimeout t).keyTime = s.keyTime := by
  unfold State.keyTimeout; split <;> rfl
@[simp] theorem State.keyTimeout_fsm (t : Word64) : (s.keyTimeout t).fsm = s.fsm := by
  unfold State.keyTimeout; split <;> rfl
@[simp] theorem State.keyTimeout_fatal (t : Word64) : (s.keyTimeout t).fatal = s.fatal := by
  unfold State.keyTimeout; split <;> rfl
@[simp] theorem State.keyTimeout_fcause (t : Word64) : (s.keyTimeout t).fcause = s.fcause := by
  unfold State.keyTimeout; split <;> rfl
@[simp] theorem State.keyTimeout_stallCnt (t : Word64) : (s.keyTimeout t).stallCnt = s.stallCnt := by
  unfold State.keyTimeout; split <;> rfl
@[simp] theorem State.keyTimeout_ri (t : Word64) : (s.keyTimeout t).ri = s.ri := by
  unfold State.keyTimeout; split <;> rfl
@[simp] theorem State.keyTimeout_rj (t : Word64) : (s.keyTimeout t).rj = s.rj := by
  unfold State.keyTimeout; split <;> rfl
@[simp] theorem State.keyTimeout_entropy (t : Word64) : (s.keyTimeout t).entropy = s.entropy := by
  unfold State.keyTimeout; split <;> rfl
@[simp] theorem State.keyTimeout_fb (t : Word64) : (s.keyTimeout t).fb = s.fb := by
  unfold State.keyTimeout; split <;> rfl
@[simp] theorem State.keyTimeout_config (t : Word64) : (s.keyTimeout t).config = s.config := by
  unfold State.keyTimeout; split <;> rfl
@[simp] theorem State.keyTimeout_inputs (t : Word64) : (s.keyTimeout t).inputs = s.inputs := by
  unfold State.keyTimeout; split <;> rfl
@[simp] theorem State.keyTimeout_events (t : Word64) : (s.keyTimeout t).events = s.events := by
  unfold State.keyTimeout; split <;> rfl
@[simp] theorem State.keyTimeout_resp (t : Word64) : (s.keyTimeout t).resp = s.resp := by
  unfold State.keyTimeout; split <;> rfl
@[simp] theorem State.keyTimeout_activity (t : Word64) : (s.keyTimeout t).activity = s.activity := by
  unfold State.keyTimeout; split <;> rfl

/-! ### State.stall -/

@[simp] theorem State.stall_grid : (s.stall).grid = s.grid := rfl
@[simp] theorem State.stall_lresW : (s.stall).lresW = s.lresW := rfl
@[simp] theorem State.stall_lresH : (s.stall).lresH = s.lresH := rfl
@[simp] theorem State.stall_keyHeld : (s.stall).keyHeld = s.keyHeld := rfl
@[simp] theorem State.stall_keyChar : (s.stall).keyChar = s.keyChar := rfl
@[simp] theorem State.stall_keyTime : (s.stall).keyTime = s.keyTime := rfl
@[simp] theorem State.stall_fsm : (s.stall).fsm = s.fsm := rfl
@[simp] theorem State.stall_fatal : (s.stall).fatal = s.fatal := rfl
@[simp] theorem State.stall_fcause : (s.stall).fcause = s.fcause := rfl
@[simp] theorem State.stall_stallCnt : (s.stall).stallCnt = 0 := rfl
@[simp] theorem State.stall_ri : (s.stall).ri = s.ri := rfl
@[simp] theorem State.stall_rj : (s.stall).rj = s.rj := rfl
@[simp] theorem State.stall_entropy : (s.stall).entropy = s.entropy := rfl
@[simp] theorem State.stall_fb : (s.stall).fb = s.fb := rfl
@[simp] theorem State.stall_config : (s.stall).config = s.config := rfl
@[simp] theorem State.stall_inputs : (s.stall).inputs = s.inputs := rfl
@[simp] theorem State.stall_events : (s.stall).events = s.events := rfl
@[simp] theorem State.stall_resp : (s.stall).resp = s.resp := rfl
@[simp] theorem State.stall_activity : (s.stall).activity = s.activity ++ [.stall (stallCycles s.config)] := rfl

/-! ### State.finishStep -/

@[simp] theorem State.finishStep_grid : (s.finishStep).grid = s.grid := rfl
@[simp] theorem State.finishStep_lresW : (s.finishStep).lresW = s.lresW := rfl
@[simp] theorem State.finishStep_lresH : (s.finishStep).lresH = s.lresH := rfl
@[simp] theorem State.finishStep_keyHeld : (s.finishStep).keyHeld = s.keyHeld := rfl
@[simp] theorem State.finishStep_keyChar : (s.finishStep).keyChar = s.keyChar := rfl
@[simp] theorem State.finishStep_keyTime : (s.finishStep).keyTime = s.keyTime := rfl
@[simp] theorem State.finishStep_fsm : (s.finishStep).fsm = .ready := rfl
@[simp] theorem State.finishStep_fatal : (s.finishStep).fatal = s.fatal := rfl
@[simp] theorem State.finishStep_fcause : (s.finishStep).fcause = s.fcause := rfl
@[simp] theorem State.finishStep_stallCnt : (s.finishStep).stallCnt = 0 := rfl
@[simp] theorem State.finishStep_ri : (s.finishStep).ri = s.ri := rfl
@[simp] theorem State.finishStep_rj : (s.finishStep).rj = s.rj := rfl
@[simp] theorem State.finishStep_entropy : (s.finishStep).entropy = s.entropy := rfl
@[simp] theorem State.finishStep_fb : (s.finishStep).fb = s.fb := rfl
@[simp] theorem State.finishStep_config : (s.finishStep).config = s.config := rfl
@[simp] theorem State.finishStep_inputs : (s.finishStep).inputs = s.inputs := rfl
@[simp] theorem State.finishStep_events : (s.finishStep).events = s.events := rfl
@[simp] theorem State.finishStep_resp : (s.finishStep).resp = some { status := .ok, data := 0 } := rfl
@[simp] theorem State.finishStep_activity : (s.finishStep).activity = s.activity ++ [.stall (stallCycles s.config)] :=
    rfl

/-! ### State.fresh -/

@[simp] theorem State.fresh_grid : (s.fresh).grid = s.grid := rfl
@[simp] theorem State.fresh_lresW : (s.fresh).lresW = s.lresW := rfl
@[simp] theorem State.fresh_lresH : (s.fresh).lresH = s.lresH := rfl
@[simp] theorem State.fresh_keyHeld : (s.fresh).keyHeld = s.keyHeld := rfl
@[simp] theorem State.fresh_keyChar : (s.fresh).keyChar = s.keyChar := rfl
@[simp] theorem State.fresh_keyTime : (s.fresh).keyTime = s.keyTime := rfl
@[simp] theorem State.fresh_fsm : (s.fresh).fsm = s.fsm := rfl
@[simp] theorem State.fresh_fatal : (s.fresh).fatal = s.fatal := rfl
@[simp] theorem State.fresh_fcause : (s.fresh).fcause = s.fcause := rfl
@[simp] theorem State.fresh_stallCnt : (s.fresh).stallCnt = s.stallCnt := rfl
@[simp] theorem State.fresh_ri : (s.fresh).ri = s.ri := rfl
@[simp] theorem State.fresh_rj : (s.fresh).rj = s.rj := rfl
@[simp] theorem State.fresh_entropy : (s.fresh).entropy = s.entropy := rfl
@[simp] theorem State.fresh_fb : (s.fresh).fb = s.fb := rfl
@[simp] theorem State.fresh_config : (s.fresh).config = s.config := rfl
@[simp] theorem State.fresh_inputs : (s.fresh).inputs = s.inputs := rfl
@[simp] theorem State.fresh_events : (s.fresh).events = s.events := rfl
@[simp] theorem State.fresh_resp : (s.fresh).resp = s.resp := rfl
@[simp] theorem State.fresh_activity : (s.fresh).activity = [] := rfl

/-! ### State.present -/

@[simp] theorem State.present_grid (p : Inputs) (r : List Event) : (s.present p r).grid = s.grid := rfl
@[simp] theorem State.present_lresW (p : Inputs) (r : List Event) : (s.present p r).lresW = s.lresW := rfl
@[simp] theorem State.present_lresH (p : Inputs) (r : List Event) : (s.present p r).lresH = s.lresH := rfl
@[simp] theorem State.present_keyHeld (p : Inputs) (r : List Event) : (s.present p r).keyHeld = s.keyHeld := rfl
@[simp] theorem State.present_keyChar (p : Inputs) (r : List Event) : (s.present p r).keyChar = s.keyChar := rfl
@[simp] theorem State.present_keyTime (p : Inputs) (r : List Event) : (s.present p r).keyTime = s.keyTime := rfl
@[simp] theorem State.present_fsm (p : Inputs) (r : List Event) : (s.present p r).fsm = s.fsm := rfl
@[simp] theorem State.present_fatal (p : Inputs) (r : List Event) : (s.present p r).fatal = s.fatal := rfl
@[simp] theorem State.present_fcause (p : Inputs) (r : List Event) : (s.present p r).fcause = s.fcause := rfl
@[simp] theorem State.present_stallCnt (p : Inputs) (r : List Event) : (s.present p r).stallCnt = s.stallCnt := rfl
@[simp] theorem State.present_ri (p : Inputs) (r : List Event) : (s.present p r).ri = s.ri := rfl
@[simp] theorem State.present_rj (p : Inputs) (r : List Event) : (s.present p r).rj = s.rj := rfl
@[simp] theorem State.present_entropy (p : Inputs) (r : List Event) : (s.present p r).entropy = s.entropy := rfl
@[simp] theorem State.present_fb (p : Inputs) (r : List Event) : (s.present p r).fb = s.fb := rfl
@[simp] theorem State.present_config (p : Inputs) (r : List Event) : (s.present p r).config = s.config := rfl
@[simp] theorem State.present_inputs (p : Inputs) (r : List Event) : (s.present p r).inputs = p := rfl
@[simp] theorem State.present_events (p : Inputs) (r : List Event) : (s.present p r).events = r := rfl
@[simp] theorem State.present_resp (p : Inputs) (r : List Event) : (s.present p r).resp = s.resp := rfl
@[simp] theorem State.present_activity (p : Inputs) (r : List Event) : (s.present p r).activity = s.activity := rfl

/-! ### State.rst -/

@[simp] theorem State.rst_grid : (s.rst).grid = Vector.replicate 32 (Vector.replicate 64 false) := rfl
@[simp] theorem State.rst_lresW : (s.rst).lresW = 0 := rfl
@[simp] theorem State.rst_lresH : (s.rst).lresH = 0 := rfl
@[simp] theorem State.rst_keyHeld : (s.rst).keyHeld = false := rfl
@[simp] theorem State.rst_keyChar : (s.rst).keyChar = 0 := rfl
@[simp] theorem State.rst_keyTime : (s.rst).keyTime = 0 := rfl
@[simp] theorem State.rst_fsm : (s.rst).fsm = .ready := rfl
@[simp] theorem State.rst_fatal : (s.rst).fatal = false := rfl
@[simp] theorem State.rst_fcause : (s.rst).fcause = 0 := rfl
@[simp] theorem State.rst_stallCnt : (s.rst).stallCnt = 0 := rfl
@[simp] theorem State.rst_ri : (s.rst).ri = 0 := rfl
@[simp] theorem State.rst_rj : (s.rst).rj = 0 := rfl
@[simp] theorem State.rst_entropy : (s.rst).entropy = s.entropy := rfl
@[simp] theorem State.rst_fb : (s.rst).fb = s.fb := rfl
@[simp] theorem State.rst_config : (s.rst).config = s.config := rfl
@[simp] theorem State.rst_inputs : (s.rst).inputs = s.inputs := rfl
@[simp] theorem State.rst_events : (s.rst).events = s.events := rfl
@[simp] theorem State.rst_resp : (s.rst).resp = none := rfl
@[simp] theorem State.rst_activity : (s.rst).activity = [] := rfl

end Sys2Proof.Machine
end

