-- ==== Sys2Proof/Laws/Operations.lean ====
section
/-! SUPPORT. What each shared operation can do, said once: accepting a command, reading the clock, the pixel
loop, the step. -/

namespace Sys2Proof.Machine

variable {s t : State}

/-! ### Accepting a command -/

theorem State.Accepting.not_halted (h : s.Accepting) : s.halted = false := by simp [State.halted, h.1, h.2]

theorem State.Dead.halted (h : s.Dead) : s.halted = true := by simp [State.halted, h.1]

@[simp] theorem State.halted_fresh : s.fresh.halted = s.halted := rfl

@[simp] theorem State.halted_present (p : Inputs) (r : List Event) : (s.present p r).halted = s.halted := rfl

theorem State.Accepting.present (h : s.Accepting) (p : Inputs) (r : List Event) : (s.present p r).Accepting := h

theorem State.Dead.present (h : s.Dead) (p : Inputs) (r : List Event) : (s.present p r).Dead := h

/-- The invariant says nothing of the pending inputs and the input ports. -/
theorem State.Inv.present (h : s.Inv) (p : Inputs) (r : List Event) : (s.present p r).Inv :=
  ⟨h.fbCanonical, h.boundary, h.fatalIffHalt, h.causeIffFatal, h.cycleNeverFails, h.transientsIdle, h.deadAnswer,
    h.liveAnswer⟩

/-- A legal state accepts commands or is dead. -/
theorem State.Inv.accepting_or_dead (h : s.Inv) : s.Accepting ∨ s.Dead := by
  rcases h.boundary with hb | hb
  · refine .inl ⟨hb, ?_⟩
    cases hf : s.fatal
    · rfl
    · have := h.fatalIffHalt.1 hf; rw [hb] at this; cases this
  · exact .inr ⟨hb, h.fatalIffHalt.2 hb⟩

theorem runCommand_accepting {i : Instr} (body : State → Host.Outcome State Fault Refusal)
    (hi : i.wellFormed = true) (h : s.Accepting) : runCommand i s body = body s.fresh := by
  simp [runCommand, hi, h.not_halted, h.1]

theorem runCommand_dead {i : Instr} (body : State → Host.Outcome State Fault Refusal)
    (hi : i.wellFormed = true) (h : s.halted = true) :
    runCommand i s body = .next s.fresh.answerFatal := by
  simp [runCommand, hi, h]

/-- A command that answers a next state is well formed, and was answered FATAL in HALT or run in READY. -/
theorem runCommand_next {i : Instr} {body : State → Host.Outcome State Fault Refusal}
    (h : runCommand i s body = .next t) :
    i.wellFormed = true ∧
      ((s.halted = true ∧ t = s.fresh.answerFatal) ∨
        (s.Accepting ∧ body s.fresh = .next t)) := by
  unfold runCommand at h
  split at h
  · cases h
  · rename_i hi
    refine ⟨by simpa using hi, ?_⟩
    split at h
    · rename_i hh; cases h; exact .inl ⟨hh, rfl⟩
    · rename_i hh
      split at h
      · rename_i hr; exact .inr ⟨⟨hr, by simp [State.halted] at hh; exact hh.1⟩, h⟩
      · cases h

/-- A command faults only when it was run, or was presented while the block was not ready. -/
theorem runCommand_fault {i : Instr} {body : State → Host.Outcome State Fault Refusal} {f : Fault}
    (h : runCommand i s body = .fault f) :
    (s.Accepting ∧ body s.fresh = .fault f) ∨ (f = .notReady ∧ s.fsm ≠ .ready ∧ s.fsm ≠ .halt) := by
  unfold runCommand at h
  split at h
  · cases h
  · split at h
    · cases h
    · rename_i hh
      simp only [State.halted, Bool.or_eq_true, decide_eq_true_eq, not_or] at hh
      split at h
      · rename_i hr; exact .inl ⟨⟨hr, by simpa using hh.1⟩, h⟩
      · rename_i hr; cases h; exact .inr ⟨rfl, hr, hh.2⟩

theorem execIllegal_next (h : execIllegal s = .next t) :
    (s.halted = true ∧ t = s.fresh.answerFatal) ∨
      (s.Accepting ∧ t = s.fresh.respond .illegal 0) := by
  unfold execIllegal at h
  split at h
  · rename_i hh; cases h; exact .inl ⟨hh, rfl⟩
  · rename_i hh
    split at h
    · rename_i hr; cases h; exact .inr ⟨⟨hr, by simp [State.halted] at hh; exact hh.1⟩, rfl⟩
    · cases h

/-- Every meaning is a body run under the one acceptance rule. -/
theorem exec_is_runCommand (i : Instr) :
    ∃ body : State → Host.Outcome State Fault Refusal, ∀ s, exec i s = runCommand i s body := by
  cases i
  case rand => exact ⟨_, fun s => by rw [exec, execRand]⟩
  case keyp => exact ⟨_, fun s => by rw [exec, execKeyp]⟩
  case setpx => exact ⟨_, fun s => by rw [exec, execSetpx]⟩
  case getpx => exact ⟨_, fun s => by rw [exec, execGetpx]⟩
  case setres => exact ⟨_, fun s => by rw [exec, execSetres]⟩
  case getres => exact ⟨_, fun s => by rw [exec, execGetres]⟩
  case ticks => exact ⟨_, fun s => by rw [exec, execTicks]⟩
  case beep => exact ⟨_, fun s => by rw [exec, execBeep]⟩
  case step => exact ⟨_, fun s => by rw [exec, execStep]⟩

/-! ### Reading the clock -/

/-- A clock read gives a time and goes on, or is Fatal(CLK_FAIL), which happens in CALENDAR mode only. -/
theorem withTime_next {body : Word64 → State → Host.Outcome State Fault Refusal} (h : withTime s body = .next t) :
    (∃ v, sampleClock s.config.clockMode s.inputs.cyc s.inputs.cal = .value v ∧
        body v (s.note (clockAction s.config.clockMode)) = .next t) ∨
      (s.config.clockMode = .calendar ∧ t = (s.note .calendarRead).raiseFatal .clkFail) := by
  unfold withTime at h
  split at h
  · rename_i v hv; exact .inl ⟨v, hv, h⟩
  · rename_i hv
    cases hm : s.config.clockMode
    · simp [sampleClock, hm] at hv
    · cases h; exact .inr ⟨rfl, by simp [hm, clockAction]⟩
  · cases h

theorem withTime_value {body : Word64 → State → Host.Outcome State Fault Refusal} {v : Word64}
    (h : sampleClock s.config.clockMode s.inputs.cyc s.inputs.cal = .value v) :
    withTime s body = body v (s.note (clockAction s.config.clockMode)) := by
  simp [withTime, h]

/-! ### The pixel loop -/

@[simp] theorem Memory.paint_nil (w : Word) (m : Memory) : m.paint w [] = m := rfl

@[simp] theorem Memory.paint_cons (w : Word) (off : Nat) (offs : List Nat) (m : Memory) :
    m.paint w (off :: offs) = (m.writeWord off w).paint w offs := rfl

theorem drawPixels_accepted (a : FbAnswers) (w : Word) (offs : List Nat) (k : Nat) (m : Memory)
    (h : ∀ j < offs.length, a.answer (k + j) = .accepted) :
    drawPixels a w k offs m =
      { fb := m.paint w offs, activity := offs.map (.fbWrite · w), finish := .completed } := by
  induction offs generalizing k m with
  | nil => rfl
  | cons off rest ih =>
    have h0 : a.answer k = .accepted := h 0 (by simp)
    rw [drawPixels, h0]
    simp only
    rw [ih (k + 1) _ fun j hj => by rw [Nat.add_right_comm]; exact h (j + 1) (by simpa using hj)]
    rfl

/-- The first write that is not accepted is the `j`-th: the writes before it have been performed, the later ones
are never issued. -/
theorem drawPixels_stopped (a : FbAnswers) (w : Word) (offs : List Nat) (k : Nat) (m : Memory) (j : Nat)
    (hj : j < offs.length) (h : ∀ i < j, a.answer (k + i) = .accepted) :
    (∀ left, a.answer (k + j) = .refused left →
      drawPixels a w k offs m =
        { fb := (m.paint w (offs.take j)).writeWord offs[j] left
          activity := (offs.take j).map (.fbWrite · w) ++ [.fbRefused offs[j] w]
          finish := .refused }) ∧
    (a.answer (k + j) = .silent → (drawPixels a w k offs m).finish = .silent) := by
  induction offs generalizing k m j with
  | nil => simp at hj
  | cons off rest ih =>
    cases j with
    | zero =>
      refine ⟨fun left hl => ?_, fun hs => ?_⟩
      · rw [drawPixels, show a.answer k = .refused left from hl]; rfl
      · rw [drawPixels, show a.answer k = .silent from hs]
    | succ j =>
      have h0 : a.answer k = .accepted := h 0 (by omega)
      have ih' := ih (k + 1) (m.writeWord off w) j (by simpa using hj) fun i hi => by
        rw [Nat.add_right_comm]; exact h (i + 1) (by omega)
      rw [show k + 1 + j = k + (j + 1) by omega] at ih'
      rw [drawPixels, h0]
      refine ⟨fun left hl => ?_, fun hs => ?_⟩
      · simp [ih'.1 left hl]
      · simpa using ih'.2 hs

/-- The pixel loop writes at the offsets it is given and nowhere else. -/
theorem drawPixels_read_other (a : FbAnswers) (w : Word) (offs : List Nat) (k : Nat) (m : Memory) (adr : Nat)
    (h : ∀ off ∈ offs, ¬(off ≤ adr ∧ adr < off + 4)) : (drawPixels a w k offs m).fb.read adr = m.read adr := by
  induction offs generalizing k m with
  | nil => rfl
  | cons off rest ih =>
    have h0 := h off (by simp)
    rw [drawPixels]
    split
    · simp only [Memory.read_writeWord, if_neg h0]
    · rfl
    · simp only
      rw [ih (k + 1) _ fun o ho => h o (by simp [ho]), Memory.read_writeWord, if_neg h0]

/-- The pixel loop keeps the canonical form. -/
theorem drawPixels_wf (a : FbAnswers) (w : Word) (offs : List Nat) (k : Nat) {m : Memory} (hm : m.WF)
    (h : ∀ off ∈ offs, off + 3 < fbBytes) : (drawPixels a w k offs m).fb.WF := by
  induction offs generalizing k m with
  | nil => exact hm
  | cons off rest ih =>
    rw [drawPixels]
    split
    · exact hm.writeWord _ (h off (by simp))
    · exact hm
    · exact ih (k + 1) (hm.writeWord _ (h off (by simp))) fun o ho => h o (by simp [ho])

/-! ### The step -/

/-- What a step can do. -/
theorem step_next (h : step s = .next t) :
    (s.events = [] ∧ t = s) ∨
    (∃ rest, s.events = .reset :: rest ∧ t = (s.present s.inputs rest).rst) ∨
    (∃ w ports rest, s.events = .command w ports :: rest ∧
      ((∃ i, decode w = .ok i ∧ exec i (s.present ports rest) = .next t) ∨
        (∃ e, decode w = .error e ∧ execIllegal (s.present ports rest) = .next t))) := by
  unfold step at h
  split at h
  · rename_i he; cases h; exact .inl ⟨he, rfl⟩
  · rename_i rest he; cases h; exact .inr (.inl ⟨rest, he, rfl⟩)
  · rename_i w ports rest he
    refine .inr (.inr ⟨w, ports, rest, he, ?_⟩)
    unfold acceptWord at h
    split at h
    · rename_i i hi; exact .inl ⟨i, hi, h⟩
    · rename_i e hi; exact .inr ⟨e, hi, h⟩

/-! ### Runs -/

@[simp] theorem runSteps_zero (s : State) : runSteps 0 s = .next s := rfl

theorem runSteps_succ (n : Nat) (h : step s = .next t) : runSteps (n + 1) s = runSteps n t := by
  simp only [runSteps, Host.Core.run]
  rw [show Sys2Proof.core.step s = step s from rfl, h]

/-- A run of one more step that reaches `t` makes its first step to some state and runs on from there. -/
theorem runSteps_next {n : Nat} (h : runSteps (n + 1) s = .next t) :
    ∃ u, step s = .next u ∧ runSteps n u = .next t := by
  cases hs : step s with
  | next u => exact ⟨u, rfl, by rw [← runSteps_succ n hs]; exact h⟩
  | fault r =>
    simp only [runSteps, Host.Core.run] at h
    rw [show Sys2Proof.core.step s = step s from rfl, hs] at h
    cases h
  | refused r =>
    simp only [runSteps, Host.Core.run] at h
    rw [show Sys2Proof.core.step s = step s from rfl, hs] at h
    cases h

/-- A run of `n + m` steps runs `n` steps and then `m`. -/
theorem runSteps_add {n m : Nat} (h : runSteps (n + m) s = .next t) :
    ∃ u, runSteps n s = .next u ∧ runSteps m u = .next t := by
  induction n generalizing s with
  | zero => exact ⟨s, rfl, by rw [Nat.zero_add] at h; exact h⟩
  | succ n ih =>
    rw [Nat.succ_add] at h
    obtain ⟨u, hu, h⟩ := runSteps_next h
    obtain ⟨v, hv, h⟩ := ih h
    exact ⟨v, by rw [runSteps_succ n hu]; exact hv, h⟩

/-- `rst` begins a run. -/
theorem State.rst_justReset (s : State) : s.rst.JustReset := rfl

/-- So does power-on. -/
theorem State.powerOn_justReset (c : Config) (p : Inputs) : (State.powerOn c p).JustReset := rfl

/-- The step that answers terminate answers a next state. -/
theorem AnswersTerminate.step (h : AnswersTerminate s t) : step s = .next t := h.2.1

end Sys2Proof.Machine
end

