-- ==== Sys2Proof/Laws/PerInstr.lean ====
section
/-! SUPPORT. Facts said of every command as syntax, one lemma per constructor: a well-formed command's operands
stay within bits 27:0, and the opcode stands alone in bits 31:28 (R90, R92). -/

namespace Sys2Proof.Laws.OpcodeField

/-- The operands of a well-formed command fit below the opcode, and its word carries the opcode of R91. -/
def Statement (i : Instr) : Prop :=
  i.wellFormed = true → i.operandBits < 2 ^ 28 ∧ bits (encode i) 31 28 = i.opcode

theorem rand : Statement .rand := by intro _; decide

theorem keyp (idx : Nat) : Statement (.keyp idx) := by
  intro h
  simp only [Instr.wellFormed, decide_eq_true_eq] at h
  simp only [Instr.operandBits, Instr.opcode, bits, encode, BitVec.toNat_ofNat]
  omega

theorem setpx (x y : Nat) (lit : Bool) : Statement (.setpx x y lit) := by
  intro h
  simp only [Instr.wellFormed, Bool.and_eq_true, decide_eq_true_eq] at h
  have := Bool.toNat_lt lit
  simp only [Instr.operandBits, Instr.opcode, bits, encode, BitVec.toNat_ofNat]
  omega

theorem getpx (x y : Nat) : Statement (.getpx x y) := by
  intro h
  simp only [Instr.wellFormed, Bool.and_eq_true, decide_eq_true_eq] at h
  simp only [Instr.operandBits, Instr.opcode, bits, encode, BitVec.toNat_ofNat]
  omega

theorem setres (w v : Nat) : Statement (.setres w v) := by
  intro h
  simp only [Instr.wellFormed, Bool.and_eq_true, decide_eq_true_eq] at h
  simp only [Instr.operandBits, Instr.opcode, bits, encode, BitVec.toNat_ofNat]
  omega

theorem getres : Statement .getres := by intro _; decide

theorem ticks : Statement .ticks := by intro _; decide

theorem beep : Statement .beep := by intro _; decide

theorem step : Statement .step := by intro _; decide

end Sys2Proof.Laws.OpcodeField
end

