-- ==== Sys2Proof/Laws/Sequencer.lean ====
section
/-! SUPPORT. The cycle-level sequencer: what one cycle does in each state of R217, and how runs of cycles compose. -/

namespace Sys2Proof.Machine

variable {q : Seq} {p : PortIn}

/-! ### One cycle -/

theorem Seq.tick_rst (h : p.rst = true) : q.tick p = { st := q.st.rst, job := .idle, answered := false } := by
  simp [Seq.tick, h]

/-- At a command boundary a presented word is accepted, and without one nothing happens. -/
theorem Seq.tick_boundary (h : p.rst = false) (hf : q.st.fsm = .ready ∨ q.st.fsm = .halt) :
    q.tick p = match p.cmd with
      | none => q.wait
      | some w => q.accept w p := by
  unfold Seq.tick
  rw [h]
  rcases hf with hf | hf <;> rw [hf] <;> cases p.cmd <;> rfl

theorem Seq.tick_raster {x y : Nat} {lit : Bool} {cfgW cfgH cfgStride : BitVec 16} (h : p.rst = false)
    (hf : q.st.fsm = .raster) (hj : q.job = .setpx x y lit cfgW cfgH cfgStride) :
    q.tick p = q.rasterCycle x y lit cfgW cfgH cfgStride p.fbAck := by
  simp only [Seq.tick, h, hf, hj, Bool.false_eq_true, if_false]

theorem Seq.tick_poll (h : p.rst = false) (hf : q.st.fsm = .poll) : q.tick p = q.pollCycle p.key := by
  simp only [Seq.tick, h, hf, Bool.false_eq_true, if_false]

theorem Seq.tick_time (h : p.rst = false) (hf : q.st.fsm = .time) : q.tick p = q.timeCycle p.cyc p.cal := by
  simp only [Seq.tick, h, hf, Bool.false_eq_true, if_false]

theorem Seq.tick_stall (h : p.rst = false) (hf : q.st.fsm = .stall) : q.tick p = q.stallCycle := by
  simp only [Seq.tick, h, hf, Bool.false_eq_true, if_false]

/-- A cycle in STALL with time left decrements the counter. -/
theorem Seq.stallCycle_count (h : q.st.stallCnt ≠ 0) :
    q.stallCycle = { q with st := { q.st with stallCnt := q.st.stallCnt - 1 }, answered := false } := by
  simp only [Seq.stallCycle, if_neg h]

/-- The cycle in which the counter is 0 ends the command. -/
theorem Seq.stallCycle_end (h : q.st.stallCnt = 0) : q.stallCycle = Seq.finish (q.st.respond .ok 0) := by
  simp only [Seq.stallCycle, if_pos h]

/-- A word accepted in HALT is answered FATAL. -/
theorem Seq.accept_halted (w : Word) (h : q.st.halted = true) :
    q.accept w p = Seq.finish q.st.fresh.answerFatal := by
  simp only [Seq.accept, h, if_true]

/-- A cycle in POLL with an answer that is no error. -/
theorem Seq.pollCycle_answered (s : State) (job : Job) (k : KeyAnswer) (h : k.err = false) :
    (Seq.goTo s .poll job).pollCycle (some k) =
      match keyEvent s.config.exitScancode k.kind k.code with
      | .exit => Seq.finish ((s.note .keyPoll).respond .ok 1)
      | .printable code => Seq.goTo (s.note .keyPoll) .time (.stepPress code)
      | .other =>
        if s.keyHeld then Seq.goTo (s.note .keyPoll) .time .stepTimeout else Seq.enterStall (s.note .keyPoll) := by
  simp only [Seq.pollCycle, pollKey, h, Bool.false_eq_true, if_false]
  simp only [Seq.goTo]
  cases keyEvent s.config.exitScancode k.kind k.code <;> rfl

/-- A cycle in POLL with the error bit. -/
theorem Seq.pollCycle_failed (s : State) (job : Job) (k : KeyAnswer) (h : k.err = true) :
    (Seq.goTo s .poll job).pollCycle (some k) = Seq.finish ((s.note .keyPoll).raiseFatal .keyFail) := by
  simp only [Seq.pollCycle, pollKey, h, if_true]
  rfl

/-- A cycle in TIME with a sample. -/
theorem Seq.timeCycle_value (s : State) (job : Job) {cyc : Word64} {cal : Option CalAnswer} {v : Word64}
    (h : sampleClock s.config.clockMode cyc cal = .value v) :
    (Seq.goTo s .time job).timeCycle cyc cal =
      (Seq.goTo s .time job).takeTime ({ s with fsm := .time }.note (clockAction s.config.clockMode)) v := by
  simp only [Seq.timeCycle, Seq.goTo, h]

/-- A cycle in TIME with the error bit. -/
theorem Seq.timeCycle_failed (s : State) (job : Job) {cyc : Word64} {cal : Option CalAnswer}
    (h : sampleClock s.config.clockMode cyc cal = .failed) :
    (Seq.goTo s .time job).timeCycle cyc cal =
      Seq.finish ((s.note (clockAction s.config.clockMode)).raiseFatal .clkFail) := by
  simp only [Seq.timeCycle, Seq.goTo, h]
  rfl

/-- A cycle in TIME without an acknowledgement. -/
theorem Seq.timeCycle_silent (s : State) (job : Job) {cyc : Word64} {cal : Option CalAnswer}
    (h : sampleClock s.config.clockMode cyc cal = .silent) :
    (Seq.goTo s .time job).timeCycle cyc cal = Seq.goTo s .time job := by
  simp only [Seq.timeCycle, Seq.goTo, h]
  rfl

/-! ### Runs of cycles -/

@[simp] theorem Seq.run_zero (ports : Inputs) (q : Seq) : Seq.run ports 0 q = q := rfl

theorem Seq.run_succ (ports : Inputs) (n : Nat) (q : Seq) :
    Seq.run ports (n + 1) q = Seq.run ports n (q.tick (q.portsFor ports none)) := rfl

theorem Seq.run_add (ports : Inputs) (n m : Nat) (q : Seq) :
    Seq.run ports (n + m) q = Seq.run ports m (Seq.run ports n q) := by
  induction n generalizing q with
  | zero => rw [Nat.zero_add, Seq.run_zero]
  | succ n ih => rw [Nat.succ_add, Seq.run_succ, ih, Seq.run_succ]

/-- A state that one cycle leaves as it is stays so. -/
theorem Seq.run_fixed {ports : Inputs} (h : q.tick (q.portsFor ports none) = q) (n : Nat) :
    Seq.run ports n q = q := by
  induction n with
  | zero => rfl
  | succ n ih => rw [Seq.run_succ, h, ih]

end Sys2Proof.Machine
end

