-- ==== Sys2Proof/Tests/Slice0.lean ====
section
/-! SUPPORT. The model's own tests: smoke tests of WellFormed and Decode, one-step tests from the vectors of
95_test_vectors.md, and for every obligation with hypotheses a witness that meets them. -/

namespace Sys2Proof.Tests

open Sys2Proof.Machine

/-! ### Helpers -/

/-- Did the instruction answer a next state? -/
def completes : Host.Outcome State Fault Refusal → Bool
  | .next _ => true
  | .fault _ => false
  | .refused _ => false

/-- The next state an outcome holds; any state where there is none. -/
def after : Host.Outcome State Fault Refusal → State
  | .next t => t
  | .fault _ => State.reset
  | .refused _ => State.reset

/-- The fault an outcome holds. -/
def stop : Host.Outcome State Fault Refusal → Option Fault
  | .next _ => none
  | .fault f => some f
  | .refused _ => none

theorem next_after {o : Host.Outcome State Fault Refusal} (h : completes o = true) : o = .next (after o) := by
  cases o <;> first | rfl | cases h

/-- A calendar date and time of day. -/
def date (year : Int) (month day hour minute second nsec : Nat) : CalAnswer :=
  { err := false, year := BitVec.ofInt 16 year, month := BitVec.ofNat 4 month, day := BitVec.ofNat 5 day
    hour := BitVec.ofNat 5 hour, minute := BitVec.ofNat 6 minute, second := BitVec.ofNat 6 second
    nsec := BitVec.ofNat 30 nsec }

/-- A key answer without error. -/
def key (kind code : Nat) : KeyAnswer := { err := false, kind := BitVec.ofNat 2 kind, code := BitVec.ofNat 16 code }

/-- A calendar read and a key poll acknowledged with the error bit. -/
def calError : CalAnswer := { date 1970 1 1 0 0 0 0 with err := true }
def keyError : KeyAnswer := { key 0 0 with err := true }

/-- The smallest display that draws, 128 × 64 (V6): one pixel a cell. -/
def ports : Inputs :=
  { cfgW := 128, cfgH := 64, cfgStride := 128, key := some (key 0 0), cyc := 2000
    cal := some (date 2000 3 1 0 0 0 0), fb := .allAccepted }

/-- A build in the given clock mode, after reset, with `p` on the input ports. -/
def block (mode : ClockMode) (p : Inputs) : State :=
  State.powerOn { clockMode := mode, exitScancode := 0x0017#16, clkHz := 1000000 } p

/-- The same with the key record (char, time) held. -/
def held (mode : ClockMode) (char time : Nat) (p : Inputs) : State :=
  { block mode p with keyHeld := true, keyChar := BitVec.ofNat 16 char, keyTime := BitVec.ofNat 64 time }

/-- The same halted by KEY_FAIL. -/
def halted (p : Inputs) : State :=
  { block .cycle p with fsm := .halt, fatal := true, fcause := 3, resp := some { status := .fatal, data := 3 } }

/-- What a STEP with the poll answer `k` and the counter `cyc` does to the record, and its response. -/
def stepOn (s : State) (k : KeyAnswer) (cyc : Nat) : State :=
  after (exec .step { s with inputs := { s.inputs with key := some k, cyc := BitVec.ofNat 64 cyc } })

/-! ### WellFormed refuses each ill-formed field (R93) -/

theorem test_wf_keyp_idx : Instr.wellFormed (.keyp 256) = false := by decide
theorem test_wf_setpx_x : Instr.wellFormed (.setpx 64 0 true) = false := by decide
theorem test_wf_setpx_y : Instr.wellFormed (.setpx 0 32 true) = false := by decide
theorem test_wf_getpx_x : Instr.wellFormed (.getpx 64 0) = false := by decide
theorem test_wf_getpx_y : Instr.wellFormed (.getpx 0 32) = false := by decide
theorem test_wf_setres_w : Instr.wellFormed (.setres 4096 0) = false := by decide
theorem test_wf_setres_h : Instr.wellFormed (.setres 0 4096) = false := by decide
theorem test_wf_bounds :
    Instr.wellFormed (.keyp 255) = true ∧ Instr.wellFormed (.setpx 63 31 false) = true ∧
      Instr.wellFormed (.setres 4095 4095) = true := by decide

/-! ### Decode, from R91, R92 and vectors 2.8 -/

theorem test_decode_rand : decode 0b00010000000000000000000000000000#32 = .ok .rand := by decide
theorem test_decode_keyp : decode 0b00100000000000000000000011001000#32 = .ok (.keyp 200) := by decide
theorem test_decode_setpx : decode 0b00110000000000010001111100111111#32 = .ok (.setpx 63 31 true) := by decide
theorem test_decode_getpx : decode 0b01000000000000000001010000001010#32 = .ok (.getpx 10 20) := by decide
theorem test_decode_setres : decode 0b01010000000000100000000001000000#32 = .ok (.setres 64 32) := by decide
theorem test_decode_getres : decode 0b01100000000000000000000000000000#32 = .ok .getres := by decide
theorem test_decode_ticks : decode 0b01110000000000000000000000000000#32 = .ok .ticks := by decide
theorem test_decode_beep : decode 0b10000000000000000000000000000000#32 = .ok .beep := by decide
theorem test_decode_step : decode 0b10010000000000000000000000000000#32 = .ok .step := by decide

theorem test_decode_unassigned :
    decode 0x00000000#32 = .error .unassignedOpcode ∧
      decode 0xA0000000#32 = .error .unassignedOpcode ∧
      decode 0xF0000000#32 = .error .unassignedOpcode ∧
      decode 0xFFFFFFFF#32 = .error .unassignedOpcode := by decide
theorem test_decode_reserved :
    decode 0x30000040#32 = .error .reservedBits ∧
      decode 0x30020000#32 = .error .reservedBits ∧
      decode 0x30002000#32 = .error .reservedBits ∧
      decode 0x40010000#32 = .error .reservedBits ∧
      decode 0x20000100#32 = .error .reservedBits ∧
      decode 0x51000000#32 = .error .reservedBits ∧
      decode 0x90000001#32 = .error .reservedBits ∧
      decode 0x70000001#32 = .error .reservedBits ∧
      decode 0x60000001#32 = .error .reservedBits ∧
      decode 0x80000001#32 = .error .reservedBits ∧
      decode 0x10000001#32 = .error .reservedBits := by decide
theorem test_table_word :
    decodeTableWord 32 0x30011F3F = some (.setpx 63 31 true) ∧ decodeTableWord 32 0 = none := by decide

/-- R102's examples of the textual form, and an operand that does not fit. -/
theorem test_text :
    (Instr.setpx 10 20 true).text = "SETPX 10, 20, 1" ∧ Instr.step.text = "STEP" ∧
      assemble (.setpx 64 0 true) = none ∧ assemble (.keyp 200) = some 0x200000C8#32 := by decide

/-! ### Nine commands as the first step from reset -/

theorem test_first_step :
    ∀ w ∈ [0x10000000, 0x20000007, 0x30010000, 0x40000000, 0x50020040, 0x60000000, 0x70000000, 0x80000000,
      0x90000000], (after (step (State.reset.withFetchWord 32 w))).resp.map Response.status = some .ok := by decide

/-- An illegal word as the first step (2.8). -/
theorem test_first_step_illegal :
    (after (step (State.reset.withFetchWord 32 0x30000040))).resp = some { status := .illegal, data := 0 } := by decide

/-! ### The tables behind the commands -/

/-- Rows of 2.1: the source's example, a display larger than the canvas by an odd number, one that draws nothing,
the largest. -/
theorem test_scale :
    scale 640 400 = { rx := 5, ry := 6, xs := 160, ys := 104 } ∧ scale 255 127 = { rx := 1, ry := 1, xs := 95, ys := 47 } ∧
      scale 127 64 = { rx := 0, ry := 1, xs := 63, ys := 16 } ∧
      scale 65535 65535 = { rx := 511, ry := 1023, xs := 16415, ys := 16399 } := by decide

/-- V3 and V4: the first row of cell (1, 0) and the last pixel of cell (63, 31) at 640 × 400; V8's last pixel. -/
theorem test_offsets :
    (scale 640 400).offset 640 1 0 0 0 = 266900 ∧ (scale 640 400).offset 640 1 0 4 0 = 266916 ∧
      (scale 640 400).offset 640 1 0 0 1 = 269460 ∧ (scale 640 400).offset 640 63 31 4 5 = 757116 ∧
      (scale 65535 65535).offset 65535 63 31 510 1022 = 12880183232 := by decide

/-- V1: the thirty offsets of cell (0, 0) at 640 × 400, in order. -/
theorem test_offset_order :
    (scale 640 400).cellOffsets 640 0 0 =
      [266880, 266884, 266888, 266892, 266896, 269440, 269444, 269448, 269452, 269456, 272000, 272004, 272008, 272012,
       272016, 274560, 274564, 274568, 274572, 274576, 277120, 277124, 277128, 277132, 277136, 279680, 279684, 279688,
       279692, 279696] := by decide

/-- V20, V22, V29, V32, V33, V39: the time in nanoseconds, around leap days, before 1970 and before the year 0. -/
theorem test_calendar :
    calendarNow (date 1970 1 1 0 0 0 0) = 0 ∧
      calendarNow (date 2000 2 29 0 0 0 0) = 951782400000000000#64 ∧
      calendarNow (date 1900 2 28 0 0 0 0) = 16242766473709551616#64 ∧
      calendarNow (date 2100 3 1 0 0 0 0) = 4107542400000000000#64 ∧
      calendarNow (date 1969 12 31 23 59 59 999999999) = 18446744073709551615#64 ∧
      calendarNow (date 0 1 1 0 0 0 0) = 11619757094838206464#64 := by decide

/-- V27, V36, V42, V43: every time field, the wrap, the smallest and the largest year. -/
theorem test_calendar_range :
    calendarNow (date 2024 2 29 12 34 56 789) = 1709210096000000789#64 ∧
      calendarNow (date 2554 7 21 23 34 33 709551616) = 0 ∧
      calendarNow (date (-32768) 1 1 0 0 0 0) = 10579242822573096960#64 ∧
      calendarNow (date 32767 12 31 23 59 59 999999999) = 12660271367103315967#64 := by decide

/-- 2.7: the stall lengths. -/
theorem test_stall_cycles :
    ∀ p ∈ [(1000000, 1666), (50000000, 83333), (100000000, 166666), (599, 0)],
      stallCycles { Config.default with clkHz := p.1 } = p.2 := by decide

/-! ### One step of each command -/

/-- V6: SETPX 63, 31, 1 at 128 × 64 writes one word at 24444, bytes FF FF FF. -/
theorem test_setpx :
    let t := after (exec (.setpx 63 31 true) (block .cycle ports))
    t.grid.cell 63 31 = true ∧ t.grid.cell 62 31 = false ∧ t.activity = [.fbWrite 24444 0x00FFFFFF#32] ∧
      t.fb.read 24444 = some 0xFF#8 ∧ t.fb.read 24446 = some 0xFF#8 ∧ t.fb.read 24448 = none := by decide

/-- V50: the third write of SETPX 1, 0, 1 at 640 × 400 is refused. -/
theorem test_setpx_refused :
    let t := after (exec (.setpx 1 0 true) (block .cycle { ports with
      cfgW := 640, cfgH := 400, cfgStride := 640, fb := .refusedAt 2 0 }))
    t.grid.cell 1 0 = true ∧ t.fatal = true ∧ t.fcause = 1 ∧ t.fsm = .halt ∧
      t.resp = some { status := .fatal, data := 1 } ∧
      t.activity = [.fbWrite 266900 0x00FFFFFF#32, .fbWrite 266904 0x00FFFFFF#32, .fbRefused 266908 0x00FFFFFF#32] := by
  decide

/-- V7 and S1: with rx = 0 nothing is drawn, and GETPX 3, 3 then returns 1. -/
theorem test_getpx :
    let t := after (exec (.setpx 3 3 true) (block .cycle { ports with cfgW := 127 }))
    t.activity = [] ∧ (after (exec (.getpx 3 3) t)).resp = some { status := .ok, data := 1 } ∧
      (after (exec (.getpx 4 3) t)).resp = some { status := .ok, data := 0 } := by decide

/-- 2.7: `cal_err` is FATAL 2 in TICKS and in STEP, `key_err` is FATAL 3; FCAUSE records the code. -/
theorem test_fatal_codes :
    (let t := after (exec .ticks (block .calendar { ports with cal := some calError }))
     t.fcause = 2 ∧ t.resp = some { status := .fatal, data := 2 }) ∧
    (let t := after (exec .step (held .calendar 0x61 1000 { ports with cal := some calError }))
     t.fcause = 2 ∧ t.resp = some { status := .fatal, data := 2 }) ∧
    (let t := after (exec .step (block .cycle { ports with key := some keyError }))
     t.fcause = 3 ∧ t.resp = some { status := .fatal, data := 3 }) := by decide

/-- V50: GETPX in a halted block answers FATAL with the cause. -/
theorem test_getpx_halted :
    (after (exec (.getpx 1 0) (halted ports))).resp = some { status := .fatal, data := 3 } := by decide

/-- 2.3: SETRES 128, 64 and GETRES. -/
theorem test_setres_getres :
    (after (exec .getres (after (exec (.setres 128 64) (block .cycle ports))))).resp =
      some { status := .ok, data := 0x040080 } := by decide

/-- 2.4: the character e answers at 6 and 0xD; no character answers at 16. -/
theorem test_keyp :
    ((List.range 17).filter fun i =>
      (after (exec (.keyp i) (held .cycle 0x65 0 ports))).resp = some { status := .ok, data := 1 }) = [6, 13] := by decide

/-- 2.6: TICKS in CYCLE mode at the odd count 1001 and at the largest. -/
theorem test_ticks_cycle :
    (after (exec .ticks (block .cycle { ports with cyc := 1001 }))).resp = some { status := .ok, data := 500 } ∧
      (after (exec .ticks (block .cycle { ports with cyc := BitVec.allOnes 64 }))).resp =
        some { status := .ok, data := 9223372036854775807 } := by decide

/-- V21: TICKS in CALENDAR mode. -/
theorem test_ticks_calendar :
    (after (exec .ticks (block .calendar ports))).resp = some { status := .ok, data := 951868800000000000 } := by decide

/-- P5: RAND answers OK with a byte, and draws one byte. -/
theorem test_rand :
    (after (exec .rand (block .cycle ports))).resp.map Response.status = some .ok ∧
      (after (exec .rand (block .cycle ports))).entropy = 1 := by decide

/-- P5: BEEP answers OK with 0. -/
theorem test_beep : (after (exec .beep (block .cycle ports))).resp = some { status := .ok, data := 0 } := by decide

/-- 2.5: the window's two edges, and the wrapped difference. -/
theorem test_step_window :
    (stepOn (held .cycle 0x61 1000 ports) (key 0 0) 400002001).keyHeld = true ∧
      (stepOn (held .cycle 0x61 1000 ports) (key 0 0) 400002002).keyHeld = false ∧
      (stepOn (held .cycle 0x61 1000 ports) (key 1 1) 400002002).keyHeld = false ∧
      (stepOn (held .cycle 0x61 (2 ^ 64 - 100) ports) (key 0 0) 399999800).keyHeld = true ∧
      (stepOn (held .cycle 0x61 (2 ^ 64 - 100) ports) (key 0 0) 399999802).keyHeld = false := by decide

/-- 2.5 and 2.7: a press re-arms with the new time, and the exit event leaves the record and stalls not. -/
theorem test_step_paths :
    (let t := stepOn (held .cycle 0x61 1000 ports) (key 2 0x62) 4000
     t.keyChar = 0x62 ∧ t.keyTime = 2000 ∧ t.activity = [.keyPoll, .cycleRead, .stall 1666] ∧
       t.resp = some { status := .ok, data := 0 }) ∧
    (let t := stepOn (held .cycle 0x61 1000 ports) (key 1 0x17) 4000
     t.keyHeld = true ∧ t.keyTime = 1000 ∧ t.activity = [.keyPoll] ∧ t.resp = some { status := .ok, data := 1 }) := by
  decide

/-- The sequencer: SETPX 63, 31, 1 presents its one pixel, and answers in the cycle after the acknowledgement. -/
theorem test_sequencer_setpx :
    let q := Seq.afterAccept (block .cycle ports) ports 0x30011F3F#32
    (q.outputs false).fb = some (24444#34, 0x00FFFFFF#32) ∧ (q.outputs false).cmdReady = false ∧
      ((Seq.run ports 1 q).outputs false).resp = some { status := .ok, data := 0 } := by decide

/-! ### Witnesses: the hypotheses of every obligation are met together -/

/-- Two commands, then a reset, and the state they start from. -/
def script : State :=
  { block .cycle ports with events := [.command 0x30011F3F#32 ports, .command 0x90000000#32 ports, .reset] }

def drawn : State := after (exec (.setpx 63 31 true) (block .cycle ports))

theorem block_accepting (m : ClockMode) (p : Inputs) : (block m p).Accepting := ⟨rfl, rfl⟩

theorem block_inv (m : ClockMode) (p : Inputs) : (block m p).Inv where
  fbCanonical := ⟨List.Pairwise.nil, by intro c h; cases h⟩
  boundary := .inl rfl
  fatalIffHalt := by simp [block, State.powerOn]
  causeIffFatal := by simp [block, State.powerOn]
  cycleNeverFails := by simp [block, State.powerOn, FatalCause.code]
  transientsIdle := ⟨rfl, rfl, rfl⟩
  deadAnswer := by simp [block, State.powerOn]
  liveAnswer := by simp [block, State.powerOn]

theorem held_inv (m : ClockMode) (c t : Nat) (p : Inputs) : (held m c t p).Inv := by
  obtain ⟨h1, h2, h3, h4, h5, h6, h7, h8⟩ := block_inv m p
  exact ⟨h1, h2, h3, h4, h5, h6, h7, h8⟩

theorem script_inv : script.Inv := by
  obtain ⟨h1, h2, h3, h4, h5, h6, h7, h8⟩ := block_inv .cycle ports
  exact ⟨h1, h2, h3, h4, h5, h6, h7, h8⟩

theorem ports_answering (m : ClockMode) : ports.Answering m :=
  ⟨by decide, fun _ => by decide, fun k => by simp [ports, FbAnswers.answer]⟩

/-- For DecodeReadsBackEveryCommand, LegalWordsAreEncodings and DecodeFollowsMaskAndMatch: operands at their bounds, a
word that decodes and is hit by its row. -/
theorem witness_encoding :
    (Instr.setpx 63 31 true).wellFormed = true ∧ (Instr.keyp 255).wellFormed = true ∧
      (Instr.setres 4095 4095).wellFormed = true ∧ decode 0x30011F3F#32 = .ok (.setpx 63 31 true) ∧
      (Instr.setpx 63 31 true).row ∈ rows ∧ (Instr.setpx 63 31 true).row.hits 0x30011F3F#32 = true := by decide

theorem witness_StepRunsTheDecodedCommand :
    (∃ w p r i, script.events = .command w p :: r ∧ decode w = .ok i) ∧ (block .cycle ports).events = [] :=
  ⟨⟨_, _, _, .setpx 63 31 true, rfl, by decide⟩, rfl⟩

theorem witness_IllegalWordHasNoEffect :
    ∃ s : State, s.Accepting ∧ ∃ w p r e, s.events = .command w p :: r ∧ decode w = .error e :=
  ⟨(block .cycle ports).withFetchWord 32 0x30000040, ⟨rfl, rfl⟩, _, _, _, .reservedBits, rfl, by decide⟩

theorem witness_DeadBlockAnswersFatal :
    (∃ s : State, s.Dead ∧ ∃ w p r, s.events = .command w p :: r) ∧ (halted ports).Dead ∧
      Instr.step.wellFormed = true :=
  ⟨⟨(halted ports).withFetchWord 32 0, ⟨rfl, rfl⟩, _, _, _, rfl⟩, ⟨rfl, rfl⟩, rfl⟩

theorem witness_OnlyResetLeavesHalt :
    (∃ (n : Nat) (s : State), s.Dead ∧ Event.reset ∉ s.events.take n ∧ s.events.length = n ∧ 0 < n) ∧
      ∃ s t : State, s.Dead ∧ step s = .next t ∧ ¬ t.Dead ∧ ∃ rest, s.events = .reset :: rest :=
  ⟨⟨1, (halted ports).withFetchWord 32 0x90000000, ⟨rfl, rfl⟩, by simp [State.withFetchWord, halted, block,
      State.powerOn], rfl, by decide⟩,
    { halted ports with events := [.reset] }, _, ⟨rfl, rfl⟩, rfl, (fun h => by cases h.1), [], rfl⟩

theorem witness_ResetLeavesTheSpecifiedValues : ∃ (s : State) (rest : List Event), s.events = .reset :: rest ∧ s.Dead :=
  ⟨{ halted ports with events := [.reset] }, [], rfl, rfl, rfl⟩

theorem witness_StepKeepsInvariant : ∃ s t : State, s.Inv ∧ step s = .next t ∧ t.grid.cell 63 31 = true :=
  ⟨script, after (step script), script_inv, next_after (by decide), by decide⟩

theorem witness_LegalStepsComplete :
    ∃ s : State, s.Inv ∧ s.events ≠ [] ∧
      ∀ w p r, s.events = .command w p :: r → p.Answering s.config.clockMode := by
  refine ⟨script, script_inv, by decide, fun w p r h => ?_⟩
  cases h
  exact ports_answering _

theorem witness_StateWrittenOnlyByItsCommands :
    ∀ i ∈ [Instr.rand, .keyp 255, .setpx 63 31 true, .getpx 63 31, .setres 4095 4095, .getres, .ticks, .beep, .step],
      exec i (block .cycle ports) = .next (after (exec i (block .cycle ports))) := by
  intro i h
  refine next_after ?_
  fin_cases h <;> decide

/-- The clauses of StateWrittenOnlyByItsCommands on SETPX: another cell and a byte outside the cell's pixels. -/
theorem witness_setpx_frame :
    ¬(62 = 63 ∧ 31 = 31) ∧ ∀ off ∈ ports.cellOffsets 63 31, ¬(off ≤ 24448 ∧ 24448 < off + 4) := by decide

theorem witness_GridHoldsTheLatestWrites :
    ∃ (n : Nat) (s t : State), s.Inv ∧ runSteps n s = .next t ∧ t.fatal = false ∧
      Event.reset ∉ s.events.take n ∧ t.grid.cell 63 31 = true :=
  ⟨2, script, after (runSteps 2 script), script_inv, next_after (by decide), by decide, by decide, by decide⟩

/-- For SetpxDrawsTheCell and SetpxWritesRowByRow: a display on which something is drawn, all of it accepted. -/
theorem witness_setpx_accepted :
    (block .cycle ports).Accepting ∧ 0 < ports.scale.rx * ports.scale.ry ∧
      ∀ k < ports.scale.rx * ports.scale.ry, ports.fb.answer k = .accepted :=
  ⟨⟨rfl, rfl⟩, by decide, fun _ _ => rfl⟩

theorem witness_ZeroScaleDrawsNothing :
    (block .cycle { ports with cfgW := 127 }).Accepting ∧ (127#16).toNat < 128 ∧
      (block .cycle { ports with cfgH := 63 }).Accepting ∧ (63#16).toNat < 64 :=
  ⟨⟨rfl, rfl⟩, by decide, ⟨rfl, rfl⟩, by decide⟩

theorem witness_RefusedPixelWriteIsFatal :
    ∃ (s : State) (k : Nat) (left : Word), s.Accepting ∧ k < s.inputs.scale.rx * s.inputs.scale.ry ∧
      s.inputs.fb = .refusedAt k left :=
  ⟨block .cycle { ports with fb := .refusedAt 0 0xDEADBEEF#32 }, 0, _, ⟨rfl, rfl⟩, by decide, rfl⟩

/-- For SetpxTwiceIsOnce and GetpxReadsTheLatestSetpx. -/
theorem witness_SetpxTwiceIsOnce :
    ∃ s t : State, s.Accepting ∧ s.fb.WF ∧ exec (.setpx 63 31 true) s = .next t ∧ t.fatal = false ∧ t.fb ≠ [] :=
  ⟨block .cycle ports, drawn, ⟨rfl, rfl⟩, (block_inv _ _).fbCanonical, next_after (by decide), by decide, by decide⟩

theorem witness_GetpxReturnsTheCell :
    drawn.Accepting ∧ (halted ports).Dead ∧ drawn.grid.cell 63 31 = true ∧
      exec (.setpx 63 31 true) (block .cycle ports) = .next drawn :=
  ⟨⟨by decide, by decide⟩, ⟨rfl, rfl⟩, by decide, next_after (by decide)⟩

/-- A run from reset of one BEEP, in which no SETPX and no SETRES runs: for GetpxReturnsTheCell and
GetresReturnsTheResolution. -/
theorem witness_run_from_reset :
    ∃ (n : Nat) (c : Config) (p : Inputs) (coming : List Event) (t : State), 0 < n ∧
      runSteps n { State.powerOn c p with events := coming } = .next t ∧ t.fatal = false ∧
      (∀ e ∈ coming.take n, ∃ w p, e = .command w p ∧ (∀ lit, decode w ≠ .ok (.setpx 63 31 lit)) ∧
        ∀ w' h, decode w ≠ .ok (.setres w' h)) := by
  refine ⟨1, Config.default, ports, [.command 0x80000000#32 ports],
    after (runSteps 1 { State.powerOn Config.default ports with events := [.command 0x80000000#32 ports] }), by decide,
    next_after (by decide), by decide, fun e he => ?_⟩
  have hb : decode 0x80000000#32 = .ok .beep := by decide
  refine ⟨_, _, by simpa using he, ?_, ?_⟩ <;> simp [hb]

theorem witness_ScaleGeometry :
    63 < 64 ∧ 31 < 32 ∧ 510 < (scale 65535 65535).rx ∧ 1022 < (scale 65535 65535).ry ∧
      (scale 65535 65535).px 63 510 < 65535 ∧
      pixelOffset 65535 5 7 = pixelOffset 65535 5 7 := by decide

/-- For PixelOffsetsFitThePort and PixelOffsetsStayInTheFramebuffer. -/
theorem witness_PixelOffsets :
    24444 ∈ ports.cellOffsets 63 31 ∧ ports.cfgW.toNat ≤ ports.cfgStride.toNat := by decide

theorem witness_LresPlaysNoPart :
    ∃ s t : State, s.Accepting ∧ exec (.setpx 63 31 true) s = .next t ∧ t.activity ≠ [] :=
  ⟨block .cycle ports, drawn, ⟨rfl, rfl⟩, next_after (by decide), by decide⟩

/-- For KeypAnswersTheHeldKey and KeyTableCollisions; `block_accepting` serves SetresStoresTheResolution,
GetresReturnsTheResolution and RandYieldsAFreeByte. -/
theorem witness_KeypAnswersTheHeldKey :
    (held .cycle 0x63 0 ports).Accepting ∧ (held .cycle 0x63 0 ports).keyHeld = true ∧
      keymap[15]? = some (held .cycle 0x63 0 ports).keyChar ∧ keymap[6]? = keymap[13]? :=
  ⟨⟨rfl, rfl⟩, rfl, by decide, by decide⟩

/-- The poll answered with `k` in a state with the record held, in the given clock mode. -/
def polled (mode : ClockMode) (k : KeyAnswer) : State := held mode 0x61 1000 { ports with key := some k }

theorem polled_accepting (m : ClockMode) (k : KeyAnswer) : (polled m k).Accepting := ⟨rfl, rfl⟩

/-- Each of the three events of the table, with the time sample where one is needed. -/
theorem witness_KeyRecordTransitions :
    (keyEvent 0x17#16 (key 1 0x17).kind (key 1 0x17).code = .exit) ∧
    (keyEvent 0x17#16 (key 2 0x61).kind (key 2 0x61).code = .printable 0x61) ∧
    (keyEvent 0x17#16 (key 3 0x17).kind (key 3 0x17).code = .other) ∧ (polled .cycle (key 3 0)).keyHeld = true ∧
    sampleClock .cycle ports.cyc ports.cal = .value 1000 ∧
    sampleClock .calendar ports.cyc ports.cal = .value 951868800000000000 := by decide

theorem witness_ExitEventKeepsTheKeyRecord :
    (polled .cycle (key 1 0x17)).Accepting ∧
      (polled .cycle (key 1 0x17)).inputs.key = some { err := false, kind := 1, code := 0x17 } ∧
      (0x17#16) = (polled .cycle (key 1 0x17)).config.exitScancode := ⟨⟨rfl, rfl⟩, rfl, rfl⟩

/-- A run of a STEP at the edge of the window and a KEYP, and a STEP one unit later. -/
theorem witness_HeldKeyLastsTheDebounceWindow :
    (∃ s t : State, s.Inv ∧ s.keyHeld = true ∧ runSteps 2 s = .next t ∧ t.fatal = false ∧
      ∀ e ∈ s.events.take 2, ∃ w p, e = .command w p ∧ (decode w = .ok .step →
        ∃ k v, p.key = some k ∧ keyEvent s.config.exitScancode k.kind k.code = .other ∧
          sampleClock s.config.clockMode p.cyc p.cal = .value v ∧ (v - s.keyTime).toNat ≤ 200000000)) ∧
    (∃ (s : State) (k : KeyAnswer) (v : Word64), s.Accepting ∧ s.keyHeld = true ∧ s.inputs.key = some k ∧
      k.err = false ∧ keyEvent s.config.exitScancode k.kind k.code = .other ∧
      sampleClock s.config.clockMode s.inputs.cyc s.inputs.cal = .value v ∧ 200000000 < (v - s.keyTime).toNat) := by
  refine ⟨?_, held .cycle 0x61 1000 { ports with cyc := 400002002 }, key 0 0, 200001001, ⟨rfl, rfl⟩, rfl, rfl, rfl,
    by decide, by decide, by decide⟩
  let s : State := { held .cycle 0x61 1000 ports with
    events := [.command 0x90000000#32 { ports with cyc := 400002001 }, .command 0x20000007#32 ports] }
  have hi : s.Inv := by
    obtain ⟨h1, h2, h3, h4, h5, h6, h7, h8⟩ := held_inv .cycle 0x61 1000 ports
    exact ⟨h1, h2, h3, h4, h5, h6, h7, h8⟩
  refine ⟨s, after (runSteps 2 s), hi, rfl, next_after (by decide), by decide, fun e he => ?_⟩
  have he : e = .command 0x90000000#32 { ports with cyc := 400002001 } ∨ e = .command 0x20000007#32 ports := by
    simpa [s] using he
  rcases he with rfl | rfl
  · exact ⟨_, _, rfl, fun _ => ⟨key 0 0, 200001000, rfl, by decide, by decide, by decide⟩⟩
  · exact ⟨_, _, rfl, fun h => absurd h (by decide)⟩

/-- For TicksCountsHalfCycles and TicksReadsTheCalendar. -/
theorem witness_ticks :
    ((block .cycle ports).Accepting ∧ (block .cycle ports).config.clockMode = .cycle) ∧
      ((block .calendar ports).Accepting ∧ (block .calendar ports).config.clockMode = .calendar ∧
        (block .calendar ports).inputs.cal = some (date 2000 3 1 0 0 0 0) ∧ (date 2000 3 1 0 0 0 0).err = false) :=
  ⟨⟨⟨rfl, rfl⟩, rfl⟩, ⟨rfl, rfl⟩, rfl, rfl, rfl⟩

/-- A failed calendar read in a TICKS, in a STEP that polled a printable event, and in one that polled nothing with a
key held. -/
theorem witness_ClockFailureIsFatal :
    (block .calendar { ports with cal := some calError }).Accepting ∧ calError.err = true ∧
      (∃ code, keyEvent 0x17#16 (key 2 0x61).kind (key 2 0x61).code = .printable code) ∧
      keyEvent 0x17#16 (key 0 0).kind (key 0 0).code = .other ∧
      (held .calendar 0x61 1000 { ports with cal := some calError }).keyHeld = true :=
  ⟨⟨rfl, rfl⟩, rfl, ⟨0x61, by decide⟩, by decide, rfl⟩

/-- For DaysFromCivilCountsDays and CivilIntermediateRanges: a day inside a month, the last of February in a leap and a
common year, the last of a year before 0. -/
theorem witness_days :
    (ValidDate 2000 2 28 ∧ (28 : Int) < monthLength 2000 2) ∧ (ValidDate 2000 2 29 ∧ 29 = monthLength 2000 2) ∧
      (ValidDate 1900 2 28 ∧ 28 = monthLength 1900 2) ∧ (ValidDate (-1) 12 31 ∧ 31 = monthLength (-1) 12) := by decide

theorem witness_CalendarDifferencesAreExact :
    0 ≤ (date 1970 1 1 0 0 0 0).nanos - (date 1969 12 31 23 59 59 999999999).nanos ∧
      (date 1970 1 1 0 0 0 0).nanos - (date 1969 12 31 23 59 59 999999999).nanos < 2 ^ 64 := by decide

/-- For BeepDoesNothing and RandYieldsAFreeByte. -/
theorem witness_boundary :
    (block .cycle ports).Accepting ∧ (halted ports).Dead ∧ bits 0x80000001#32 31 28 = 8 ∧
      bits 0x80000001#32 27 0 ≠ 0 := ⟨⟨rfl, rfl⟩, ⟨rfl, rfl⟩, by decide, by decide⟩

/-- For TerminateExactlyOnExit and StepPortActivity: STEP on each path completes without a fatal fault. -/
theorem witness_step_paths :
    ∀ k ∈ [key 0 0, key 1 1, key 1 0x17, key 2 0x61, key 3 0],
      (polled .cycle k).Accepting ∧ (polled .cycle k).inputs.key = some k ∧ k.err = false ∧
        exec .step (polled .cycle k) = .next (after (exec .step (polled .cycle k))) ∧
        (after (exec .step (polled .cycle k))).fatal = false := by
  intro k h
  refine ⟨polled_accepting _ _, rfl, ?_, next_after ?_, ?_⟩ <;> fin_cases h <;> decide

/-- For StepExitPath, StepPrintablePath and StepOtherwisePath: each path's conditions on the event. -/
theorem witness_step_kinds :
    ((key 1 0x17).kind = 1 ∧ (key 1 0x17).code = (polled .cycle (key 1 0x17)).config.exitScancode) ∧
      (key 2 0x61).kind = 2 ∧ (key 0 0).kind = 0 ∧ ((key 1 1).kind = 1 ∧ (key 1 1).code ≠ 0x17) ∧ (key 3 0).kind = 3 ∧
      (block .cycle ports).keyHeld = false ∧ (polled .cycle (key 0 0)).keyHeld = true := by decide

theorem witness_KeyPollFailureIsFatal :
    (polled .cycle keyError).Accepting ∧ (polled .cycle keyError).inputs.key = some keyError ∧ keyError.err = true :=
  ⟨⟨rfl, rfl⟩, rfl, rfl⟩

theorem witness_NormalEndKeepsTheBlock : ∃ s t : State, s.Inv ∧ AnswersTerminate s t := by
  refine ⟨(block .cycle { ports with key := some (key 1 0x17) }).withFetchWord 32 0x90000000,
    after (step ((block .cycle { ports with key := some (key 1 0x17) }).withFetchWord 32 0x90000000)), ?_,
    ⟨_, _, _, rfl, by decide⟩, next_after (by decide), by decide⟩
  obtain ⟨h1, h2, h3, h4, h5, h6, h7, h8⟩ := block_inv .cycle { ports with key := some (key 1 0x17) }
  exact ⟨h1, h2, h3, h4, h5, h6, h7, h8⟩

/-- A run from reset: a BEEP, a STEP that polls the exit event, and another one that does. -/
def exiting : State :=
  let p : Inputs := { ports with key := some (key 1 0x17) }
  { block .cycle ports with events := [.command 0x80000000#32 p, .command 0x90000000#32 p, .command 0x90000000#32 p] }

/-- R222: the run ends at its step 1, counted from 0, and not at its step 2, which answers terminate too. For
RunEndsAtTheFirstTerminate, its first three clauses. -/
theorem witness_RunEndsAtTheFirstTerminate :
    RunEndsAt exiting 1 (after (runSteps 2 exiting)) ∧ exiting.fb.WF ∧
      AnswersTerminate (after (runSteps 2 exiting)) (after (runSteps 3 exiting)) ∧
      ∀ t, ¬ RunEndsAt exiting 2 t := by
  have h1 : AnswersTerminate (after (runSteps 1 exiting)) (after (runSteps 2 exiting)) :=
    ⟨⟨0x90000000#32, _, _, rfl, by decide⟩, rfl, by decide⟩
  have h2 : AnswersTerminate (after (runSteps 2 exiting)) (after (runSteps 3 exiting)) :=
    ⟨⟨0x90000000#32, _, _, rfl, by decide⟩, rfl, by decide⟩
  have r1 : runSteps 1 exiting = .next (after (runSteps 1 exiting)) := next_after (by decide)
  refine ⟨⟨rfl, by decide, ⟨_, r1, h1⟩, ?_⟩, ⟨List.Pairwise.nil, by intro c h; cases h⟩, h2, fun t h => ?_⟩
  · intro k hk u v hu ht
    obtain rfl : k = 0 := by omega
    cases hu
    obtain ⟨⟨w, p, r, he, hd⟩, -⟩ := ht
    cases he
    exact absurd hd (by decide)
  · exact h.first 1 (by decide) _ _ r1 h1

/-- Its last clause: a run that is stuck at its first step, and one that is faulted after it. -/
theorem witness_run_stuck_or_faulted :
    ((block .cycle ports).withFetchWord 32 0x90000000).JustReset ∧
      ({ block .cycle ports with events := [.command 0x90000000#32 { ports with key := none }] } : State).Stuck ∧
      ∃ u, runSteps 1 { block .cycle ports with events := [.command 0x90000000#32 { ports with key := some keyError }] } =
        .next u ∧ u.Faulted :=
  ⟨rfl, .inr (.inl rfl), _, next_after (by decide), by decide⟩

/-- For FatalCausesAreNumbered, its clause on SETPX; `witness_ClockFailureIsFatal` and `witness_KeyPollFailureIsFatal`
serve its others. -/
theorem witness_FatalCausesAreNumbered :
    ∃ s t : State, s.Accepting ∧ exec (.setpx 63 31 true) s = .next t ∧ t.fatal = true :=
  ⟨block .cycle { ports with fb := .refusedAt 0 0 }, after (exec (.setpx 63 31 true) (block .cycle { ports with
    fb := .refusedAt 0 0 })), ⟨rfl, rfl⟩, next_after (by decide), by decide⟩

/-- A STEP in CALENDAR mode whose clock read is never acknowledged: for SilentPlatformStops, on a printable event and on
no event with a key held. -/
theorem witness_silent_calendar_in_step :
    ∀ k ∈ [key 2 0x61, key 0 0],
      (held .calendar 0x61 1000 { ports with cal := none, key := some k }).Accepting ∧ k.err = false ∧
        ((∃ code, keyEvent 0x17#16 k.kind k.code = .printable code) ∨
          (keyEvent 0x17#16 k.kind k.code = .other ∧
            (held .calendar 0x61 1000 { ports with cal := none, key := some k }).keyHeld = true)) := by
  intro k h
  refine ⟨⟨rfl, rfl⟩, ?_, ?_⟩
  · fin_cases h <;> rfl
  · fin_cases h
    · exact .inl ⟨0x61, by decide⟩
    · exact .inr ⟨by decide, rfl⟩

theorem witness_SilentPlatformStops :
    (block .cycle { ports with key := none }).inputs.key = none ∧
      (block .calendar { ports with cal := none }).inputs.cal = none ∧
      (0 < (block .cycle { ports with fb := .silentAt 0 }).inputs.scale.rx *
        (block .cycle { ports with fb := .silentAt 0 }).inputs.scale.ry) ∧
      stop (exec .step (block .cycle { ports with key := none })) = some .keyPollSilent := by decide

/-- A dead block and a live one, and every command that runs. -/
theorem witness_SequencerRunsEveryCommand :
    (block .cycle ports).Inv ∧ (Instr.setpx 63 31 true).wellFormed = true ∧
      exec (.setpx 63 31 true) (block .cycle ports) = .next drawn :=
  ⟨block_inv _ _, rfl, next_after (by decide)⟩

theorem witness_SequencerWaitsForEverOnSilence :
    (block .cycle { ports with key := none }).Inv ∧ Instr.step.wellFormed = true ∧
      exec .step (block .cycle { ports with key := none }) = .fault .keyPollSilent :=
  ⟨block_inv _ _, rfl, rfl⟩

/-- The block waiting in READY, in RASTER, in POLL and in TIME. -/
theorem witness_SequencerHoldsUntilAcknowledged :
    (Seq.afterAccept (block .cycle ports) ports 0x30011F3F#32).st.fsm = .raster ∧
      (Seq.afterAccept (block .cycle ports) ports 0x90000000#32).st.fsm = .poll ∧
      (Seq.afterAccept (block .calendar ports) ports 0x70000000#32).st.fsm = .time ∧
      (Seq.afterAccept (block .cycle ports) ports 0x80000000#32).st.fsm = .ready := by decide

theorem witness_StallLastsItsCycles :
    (block .cycle ports).config.StallFits ∧ (Seq.enterStall (block .cycle ports)).st.fsm = .stall ∧
      (Seq.enterStall (block .cycle ports)).st.stallCnt.toNat = 1666 := by decide

/-- `rst` in the middle of a SETPX. -/
theorem witness_ResetAbandonsTheCommand :
    ∃ (q : Seq) (p : PortIn), p.rst = true ∧ q.st.fsm = .raster :=
  ⟨Seq.afterAccept (block .cycle ports) ports 0x30011F3F#32,
    { rst := true, cmd := none, cfgW := 0, cfgH := 0, cfgStride := 0, fbAck := .silent, key := none, cyc := 0,
      cal := none }, rfl, by decide⟩

end Sys2Proof.Tests
end

section
/-! SUPPORT. Proofs about the display commands. First what every command does, said once as a relation between the
state it runs in and the state it leaves; then what steps and runs keep; then the obligations on GETPX, SETRES, GETRES
and LRES (40_display.md). -/

namespace Sys2Proof.Machine

section
variable {i : Instr} {s t : State} {x y : Nat}

/-! ### The words of the commands -/

/-- The operands of a well-formed command lie below its opcode (R92). -/
theorem operandBits_lt (h : i.wellFormed = true) : i.operandBits < 2 ^ 28 := by
  cases i with
  | rand => exact (Laws.OpcodeField.rand h).1
  | keyp idx => exact (Laws.OpcodeField.keyp idx h).1
  | setpx x y lit => exact (Laws.OpcodeField.setpx x y lit h).1
  | getpx x y => exact (Laws.OpcodeField.getpx x y h).1
  | setres w v => exact (Laws.OpcodeField.setres w v h).1
  | getres => exact (Laws.OpcodeField.getres h).1
  | ticks => exact (Laws.OpcodeField.ticks h).1
  | beep => exact (Laws.OpcodeField.beep h).1
  | step => exact (Laws.OpcodeField.step h).1

theorem opcode_lt (i : Instr) : i.opcode < 2 ^ 4 := by cases i <;> simp [Instr.opcode]

/-- The word of a well-formed command is its opcode above its operands: nothing is truncated. -/
theorem toNat_encode (h : i.wellFormed = true) : (encode i).toNat = i.opcode * 2 ^ 28 + i.operandBits := by
  have h1 := operandBits_lt h
  have h2 := opcode_lt i
  rw [encode, BitVec.toNat_ofNat, Nat.mod_eq_of_lt (by omega)]

theorem wellFormed_getpx : (Instr.getpx x y).wellFormed = true ↔ x < 64 ∧ y < 32 := by simp [Instr.wellFormed]

theorem wellFormed_setpx {lit : Bool} : (Instr.setpx x y lit).wellFormed = true ↔ x < 64 ∧ y < 32 := by
  simp [Instr.wellFormed]

theorem wellFormed_setres {w h : Nat} : (Instr.setres w h).wellFormed = true ↔ w < 4096 ∧ h < 4096 := by
  simp [Instr.wellFormed]

/-! ### What a command does -/

/-- The pixel loop of SETPX x, y, lit run in `s`. -/
def State.pixelLoop (s : State) (x y : Nat) (lit : Bool) : Drawn :=
  drawPixels s.inputs.fb (pixelWord lit) 0 (s.inputs.cellOffsets x y) s.fb

/-- `s` after SETPX x, y, lit has written GRID and left its pixel loop. -/
def State.draw (s : State) (x y : Nat) (lit : Bool) : State :=
  { s with
    grid := s.grid.setCell x y lit
    fb := (s.pixelLoop x y lit).fb
    activity := s.activity ++ (s.pixelLoop x y lit).activity }

/-- The clock read of a command run in `s`. -/
def State.clock (s : State) : Read Word64 := sampleClock s.config.clockMode s.inputs.cyc s.inputs.cal

/-- The key poll of a STEP run in `s`. -/
def State.poll (s : State) : Read KeyEvent := pollKey s.config.exitScancode s.inputs.key

/-- `s` with the clock read in its port activity. -/
def State.noteClock (s : State) : State := s.note (clockAction s.config.clockMode)

/-- `Ran s i t`: the accepted command `i`, run in `s` (with no port activity of its own yet), completes and leaves
`t`. One constructor for each way a command completes. -/
inductive Ran (s : State) : Instr → State → Prop
  | rand : Ran s .rand ({ s with entropy := s.entropy + 1 }.respond .ok ((Config.freeByte s.entropy).setWidth 64))
  | keyp (idx : Nat) : Ran s (.keyp idx) (s.respond .ok (boolData (keyMatches s.keyHeld s.keyChar idx)))
  | setpxDrawn {x y : Nat} {lit : Bool} (drawn : (s.pixelLoop x y lit).finish = .completed) :
      Ran s (.setpx x y lit) ((s.draw x y lit).respond .ok 0)
  | setpxRefused {x y : Nat} {lit : Bool} (drawn : (s.pixelLoop x y lit).finish = .refused) :
      Ran s (.setpx x y lit) ((s.draw x y lit).raiseFatal .fbFail)
  | getpx (x y : Nat) : Ran s (.getpx x y) (s.respond .ok (boolData (s.grid.cell x y)))
  | setres (w h : Nat) :
      Ran s (.setres w h) ({ s with lresW := BitVec.ofNat 12 w, lresH := BitVec.ofNat 12 h }.respond .ok 0)
  | getres : Ran s .getres (s.respond .ok (resData s.lresW s.lresH))
  | ticks {v : Word64} (clock : s.clock = .value v) : Ran s .ticks (s.noteClock.respond .ok v)
  | ticksFailed (clock : s.clock = .failed) : Ran s .ticks (s.noteClock.raiseFatal .clkFail)
  | beep : Ran s .beep (s.respond .ok 0)
  | stepFailed (poll : s.poll = .failed) : Ran s .step ((s.note .keyPoll).raiseFatal .keyFail)
  | stepExit (poll : s.poll = .value .exit) : Ran s .step ((s.note .keyPoll).respond .ok 1)
  | stepPress {code : BitVec 16} {v : Word64} (poll : s.poll = .value (.printable code)) (clock : s.clock = .value v) :
      Ran s .step ((s.note .keyPoll).noteClock.keyPress code v).finishStep
  | stepPressFailed {code : BitVec 16} (poll : s.poll = .value (.printable code)) (clock : s.clock = .failed) :
      Ran s .step ((s.note .keyPoll).noteClock.raiseFatal .clkFail)
  | stepTimeout {v : Word64} (poll : s.poll = .value .other) (held : s.keyHeld = true) (clock : s.clock = .value v) :
      Ran s .step ((s.note .keyPoll).noteClock.keyTimeout v).finishStep
  | stepTimeoutFailed (poll : s.poll = .value .other) (held : s.keyHeld = true) (clock : s.clock = .failed) :
      Ran s .step ((s.note .keyPoll).noteClock.raiseFatal .clkFail)
  | stepIdle (poll : s.poll = .value .other) (held : s.keyHeld = false) :
      Ran s .step (s.note .keyPoll).finishStep

/-- A clock read gives a time and goes on, or fails and is Fatal(CLK_FAIL). -/
theorem withTime_eq_next_iff {body : Word64 → State → Host.Outcome State Fault Refusal} :
    withTime s body = .next t ↔
      (∃ v, s.clock = .value v ∧ body v s.noteClock = .next t) ∨
        (s.clock = .failed ∧ t = s.noteClock.raiseFatal .clkFail) := by
  unfold withTime State.noteClock
  rw [show sampleClock s.config.clockMode s.inputs.cyc s.inputs.cal = s.clock from rfl]
  cases s.clock <;> simp [eq_comm]

/-- SETPX run in `s`, by where its pixel loop ends. -/
theorem exec_setpx_accepting (lit : Bool) (hi : (Instr.setpx x y lit).wellFormed = true) (ha : s.Accepting) :
    exec (.setpx x y lit) s =
      match (s.fresh.pixelLoop x y lit).finish with
      | .completed => .next ((s.fresh.draw x y lit).respond .ok 0)
      | .refused => .next ((s.fresh.draw x y lit).raiseFatal .fbFail)
      | .silent => .fault .framebufferSilent := by
  rw [exec, execSetpx, runCommand_accepting _ hi ha]
  rfl

/-- STEP run in `s`, by its poll. -/
theorem exec_step_accepting (ha : s.Accepting) :
    exec .step s =
      match s.fresh.poll with
      | .silent => .fault .keyPollSilent
      | .failed => .next ((s.fresh.note .keyPoll).raiseFatal .keyFail)
      | .value .exit => .next ((s.fresh.note .keyPoll).respond .ok 1)
      | .value (.printable code) =>
        withTime (s.fresh.note .keyPoll) fun t s => .next (s.keyPress code t).finishStep
      | .value .other =>
        if s.fresh.keyHeld then withTime (s.fresh.note .keyPoll) fun t s => .next (s.keyTimeout t).finishStep
        else .next (s.fresh.note .keyPoll).finishStep := by
  rw [exec, execStep, runCommand_accepting _ rfl ha]
  rfl

theorem exec_setpx_iff {lit : Bool} (hi : (Instr.setpx x y lit).wellFormed = true) (ha : s.Accepting) :
    exec (.setpx x y lit) s = .next t ↔ Ran s.fresh (.setpx x y lit) t := by
  rw [exec_setpx_accepting lit hi ha]
  constructor
  · intro h
    split at h
    next hd => cases h; exact .setpxDrawn hd
    next hd => cases h; exact .setpxRefused hd
    next => cases h
  · intro h
    cases h with
    | setpxDrawn hd => rw [hd]
    | setpxRefused hd => rw [hd]

theorem exec_ticks_iff (ha : s.Accepting) : exec .ticks s = .next t ↔ Ran s.fresh .ticks t := by
  rw [exec, execTicks, runCommand_accepting _ rfl ha, withTime_eq_next_iff]
  constructor
  · rintro (⟨v, hc, h⟩ | ⟨hc, rfl⟩)
    · cases h; exact .ticks hc
    · exact .ticksFailed hc
  · intro h
    cases h with
    | ticks hc => exact .inl ⟨_, hc, rfl⟩
    | ticksFailed hc => exact .inr ⟨hc, rfl⟩

theorem ran_of_exec_step (ha : s.Accepting) (h : exec .step s = .next t) : Ran s.fresh .step t := by
  rw [exec_step_accepting ha] at h
  split at h
  next => cases h
  next hp => cases h; exact .stepFailed hp
  next hp => cases h; exact .stepExit hp
  next hp =>
    obtain ⟨v, hc, h⟩ | ⟨hc, rfl⟩ := withTime_eq_next_iff.1 h
    · cases h; exact .stepPress hp hc
    · exact .stepPressFailed hp hc
  next hp =>
    split at h
    next hk =>
      obtain ⟨v, hc, h⟩ | ⟨hc, rfl⟩ := withTime_eq_next_iff.1 h
      · cases h; exact .stepTimeout hp hk hc
      · exact .stepTimeoutFailed hp hk hc
    next hk => cases h; exact .stepIdle hp (by simpa using hk)

theorem exec_step_of_ran (ha : s.Accepting) (h : Ran s.fresh .step t) : exec .step s = .next t := by
  rw [exec_step_accepting ha]
  cases h with
  | stepFailed hp => rw [hp]
  | stepExit hp => rw [hp]
  | stepPress hp hc => rw [hp]; exact withTime_eq_next_iff.2 (.inl ⟨_, hc, rfl⟩)
  | stepPressFailed hp hc => rw [hp]; exact withTime_eq_next_iff.2 (.inr ⟨hc, rfl⟩)
  | stepTimeout hp hk hc => rw [hp]; exact (if_pos hk).trans (withTime_eq_next_iff.2 (.inl ⟨_, hc, rfl⟩))
  | stepTimeoutFailed hp hk hc => rw [hp]; exact (if_pos hk).trans (withTime_eq_next_iff.2 (.inr ⟨hc, rfl⟩))
  | stepIdle hp hk => rw [hp]; exact if_neg (by simpa using hk)

/-- `Ran` says what an accepted command does, no less and no more. -/
theorem exec_accepting_iff (hi : i.wellFormed = true) (ha : s.Accepting) :
    exec i s = .next t ↔ Ran s.fresh i t := by
  cases i with
  | rand =>
    rw [exec, execRand, runCommand_accepting _ hi ha]
    exact ⟨fun h => by cases h; exact .rand, fun h => by cases h; rfl⟩
  | keyp idx =>
    rw [exec, execKeyp, runCommand_accepting _ hi ha]
    exact ⟨fun h => by cases h; exact .keyp idx, fun h => by cases h; rfl⟩
  | setpx x y lit => exact exec_setpx_iff hi ha
  | getpx x y =>
    rw [exec, execGetpx, runCommand_accepting _ hi ha]
    exact ⟨fun h => by cases h; exact .getpx x y, fun h => by cases h; rfl⟩
  | setres w h =>
    rw [exec, execSetres, runCommand_accepting _ hi ha]
    exact ⟨fun h => by cases h; exact .setres w _, fun h => by cases h; rfl⟩
  | getres =>
    rw [exec, execGetres, runCommand_accepting _ hi ha]
    exact ⟨fun h => by cases h; exact .getres, fun h => by cases h; rfl⟩
  | ticks => exact exec_ticks_iff ha
  | beep =>
    rw [exec, execBeep, runCommand_accepting _ hi ha]
    exact ⟨fun h => by cases h; exact .beep, fun h => by cases h; rfl⟩
  | step => exact ⟨ran_of_exec_step ha, exec_step_of_ran ha⟩

/-- In HALT a well-formed command changes nothing and is answered FATAL (R246, R251). -/
theorem exec_halted (hi : i.wellFormed = true) (h : s.halted = true) : exec i s = .next s.fresh.answerFatal := by
  obtain ⟨body, hb⟩ := exec_is_runCommand i
  rw [hb, runCommand_dead body hi h]

/-- A command that answers a next state is well formed, and was answered FATAL in HALT or run in READY. -/
theorem exec_next (h : exec i s = .next t) :
    i.wellFormed = true ∧ ((s.halted = true ∧ t = s.fresh.answerFatal) ∨ (s.Accepting ∧ Ran s.fresh i t)) := by
  obtain ⟨body, hb⟩ := exec_is_runCommand i
  obtain ⟨hi, ht⟩ := runCommand_next ((hb s).symm.trans h)
  exact ⟨hi, ht.imp_right fun ⟨ha, _⟩ => ⟨ha, (exec_accepting_iff hi ha).1 h⟩⟩

/-! ### What a command leaves as it was -/

theorem Ran.events_eq (h : Ran s i t) : t.events = s.events := by
  cases h <;> simp [State.noteClock, State.draw]

/-- A command run in READY ends in READY, or in a fatal fault. -/
theorem Ran.ready_of_not_fatal (h : Ran s i t) (hf : t.fatal = false) : t.fsm = .ready := by
  revert hf
  cases h <;> simp

/-- GRID after a command: SETPX writes its cell, completed or refused, and no other command writes GRID (R61). -/
theorem Ran.grid_eq (h : Ran s i t) :
    t.grid = match i with
      | .setpx x y lit => s.grid.setCell x y lit
      | _ => s.grid := by
  cases h <;> simp [State.noteClock, State.draw]

/-- Only SETRES writes LRES (R124). -/
theorem Ran.lres_eq (h : Ran s i t) (hne : ∀ w h, i ≠ .setres w h) : t.lresW = s.lresW ∧ t.lresH = s.lresH := by
  cases h with
  | setres w h => exact absurd rfl (hne w h)
  | _ => simp [State.noteClock, State.draw]

/-- Only a SETPX to the cell writes it (R72). -/
theorem Ran.cell_eq (h : Ran s i t) (hi : i.wellFormed = true) (hne : ∀ lit, i ≠ .setpx x y lit) :
    t.grid.cell x y = s.grid.cell x y := by
  rw [h.grid_eq]
  split
  next _ x' y' lit _ =>
    obtain ⟨hx, hy⟩ := wellFormed_setpx.1 hi
    rw [Grid.cell_setCell _ _ _ _ hx hy, if_neg]
    rintro ⟨rfl, rfl⟩
    exact hne lit rfl
  next => rfl

/-! ### What a step and a run keep -/

/-- What a step does, with the command's own work as `Ran` says it. -/
theorem step_cases (h : step s = .next t) :
    (s.events = [] ∧ t = s) ∨
    (∃ rest, s.events = .reset :: rest ∧ t = (s.present s.inputs rest).rst) ∨
    ∃ w ports rest, s.events = .command w ports :: rest ∧
      (t = (s.present ports rest).fresh.answerFatal ∨
        t = (s.present ports rest).fresh.respond .illegal 0 ∨
        ∃ i, decode w = .ok i ∧ i.wellFormed = true ∧ Ran (s.present ports rest).fresh i t) := by
  obtain hn | hr | ⟨w, p, rest, he, ⟨i, hd, hx⟩ | ⟨e, hd, hx⟩⟩ := step_next h
  · exact .inl hn
  · exact .inr (.inl hr)
  · obtain ⟨hi, ⟨-, ht⟩ | ⟨-, ht⟩⟩ := exec_next hx
    · exact .inr (.inr ⟨w, p, rest, he, .inl ht⟩)
    · exact .inr (.inr ⟨w, p, rest, he, .inr (.inr ⟨i, hd, hi, ht⟩)⟩)
  · obtain ⟨-, ht⟩ | ⟨-, ht⟩ := execIllegal_next hx
    · exact .inr (.inr ⟨w, p, rest, he, .inl ht⟩)
    · exact .inr (.inr ⟨w, p, rest, he, .inr (.inl ht)⟩)

theorem step_events (h : step s = .next t) : t.events = s.events.tail := by
  obtain ⟨he, rfl⟩ | ⟨rest, he, rfl⟩ | ⟨w, p, rest, he, rfl | rfl | ⟨i, -, -, hr⟩⟩ := step_cases h
  · simp [he]
  · simp [he]
  · simp [he]
  · simp [he]
  · simp [he, hr.events_eq]

/-- The event is a command word that is not decoded to a command of `F`. -/
def Event.Avoids (F : Instr → Prop) (e : Event) : Prop :=
  ∃ w p, e = .command w p ∧ ∀ i, decode w = .ok i → ¬ F i

/-- The obligations' form of `Event.Avoids`, for the commands of a family. -/
theorem Event.avoids_family {α : Type} {f : α → Instr} {e : Event}
    (h : ∃ w p, e = .command w p ∧ ∀ a, decode w ≠ .ok (f a)) : e.Avoids (∃ a, · = f a) := by
  obtain ⟨w, p, rfl, hd⟩ := h
  refine ⟨w, p, rfl, ?_⟩
  rintro _ hi ⟨a, rfl⟩
  exact hd a hi

/-- A property of the state that every command but those of `F` keeps. -/
structure KeptExcept (F : Instr → Prop) (P : State → Prop) : Prop where
  present : ∀ {s} (p : Inputs) (rest : List Event), P s → P (s.present p rest).fresh
  answerFatal : ∀ {s}, P s → P s.answerFatal
  respond : ∀ {s}, P s → P (s.respond .illegal 0)
  ran : ∀ {s i t}, i.wellFormed = true → ¬ F i → Ran s i t → P s → P t

variable {F : Instr → Prop} {P : State → Prop}

theorem KeptExcept.step (hP : KeptExcept F P) (hs : P s) (he : ∀ e ∈ s.events.head?, e.Avoids F)
    (h : step s = .next t) : P t := by
  obtain ⟨-, rfl⟩ | ⟨rest, hev, rfl⟩ | ⟨w, p, rest, hev, rfl | rfl | ⟨i, hd, hi, hr⟩⟩ := step_cases h
  · exact hs
  · obtain ⟨w, p, hc, -⟩ := he .reset (by simp [hev])
    cases hc
  · exact hP.answerFatal (hP.present p rest hs)
  · exact hP.respond (hP.present p rest hs)
  · obtain ⟨w, p, hc, hav⟩ := he (.command w p) (by simp [hev])
    cases hc
    exact hP.ran hi (hav i hd) hr (hP.present _ rest hs)

/-- A run that meets no reset and no command of `F` keeps what the other commands keep. -/
theorem KeptExcept.runSteps (hP : KeptExcept F P) {n : Nat} (hs : P s) (he : ∀ e ∈ s.events.take n, e.Avoids F)
    (h : runSteps n s = .next t) : P t := by
  induction n generalizing s with
  | zero => cases h; exact hs
  | succ n ih =>
    obtain ⟨u, hu, h⟩ := runSteps_next h
    refine ih (hP.step hs (fun e hm => he e ?_) hu) (fun e hm => he e ?_) h
    · cases hev : s.events <;> simp_all
    · rw [step_events hu] at hm
      cases hev : s.events <;> simp_all

/-- The block is READY unless a fatal fault has happened (R26, R246). -/
def State.ReadyUnlessFatal (s : State) : Prop := s.fatal = false → s.fsm = .ready

theorem keptExcept_readyUnlessFatal : KeptExcept F State.ReadyUnlessFatal where
  present _ _ h := h
  answerFatal h := h
  respond _ _ := rfl
  ran _ _ hr _ := hr.ready_of_not_fatal

theorem keptExcept_cell (b : Bool) :
    KeptExcept (∃ lit, · = .setpx x y lit) (fun s => s.grid.cell x y = b) where
  present _ _ h := h
  answerFatal h := h
  respond h := h
  ran hi hne hr h := (hr.cell_eq hi fun lit hl => hne ⟨lit, hl⟩).trans h

theorem keptExcept_lres (a b : BitVec 12) :
    KeptExcept (∃ r : Nat × Nat, · = .setres r.1 r.2) (fun s => s.lresW = a ∧ s.lresH = b) where
  present _ _ h := h
  answerFatal h := h
  respond h := h
  ran _ hne hr h := by
    obtain ⟨hw, hh⟩ := hr.lres_eq fun w h hs => hne ⟨(w, h), hs⟩
    exact ⟨hw.trans h.1, hh.trans h.2⟩

/-- A run of commands from reset that has met no fatal fault is at a command boundary that accepts. -/
theorem accepting_of_run_from_reset {n : Nat} {c : Config} {p : Inputs} {coming : List Event}
    (h : runSteps n { State.powerOn c p with events := coming } = .next t) (hf : t.fatal = false)
    (he : ∀ e ∈ coming.take n, e.Avoids F) : t.Accepting :=
  ⟨keptExcept_readyUnlessFatal.runSteps (fun _ => rfl) he h hf, hf⟩

/-! ### What GETPX, GETRES and SETRES answer -/

theorem State.Accepting.fresh_respond (ha : s.Accepting) (st : Status) (d : Word64) :
    s.fresh.respond st d = { s with resp := some { status := st, data := d }, activity := [] } := by
  obtain ⟨hr, -⟩ := ha
  simp [State.respond, State.fresh, ← hr]

theorem exec_getpx_accepting (hx : x < 64) (hy : y < 32) (ha : s.Accepting) :
    exec (.getpx x y) s = .next
      { s with resp := some { status := .ok, data := boolData (s.grid.cell x y) }, activity := [] } := by
  rw [← ha.fresh_respond]
  exact (exec_accepting_iff (wellFormed_getpx.2 ⟨hx, hy⟩) ha).2 (.getpx x y)

theorem exec_getres_accepting (ha : s.Accepting) :
    exec .getres s = .next
      { s with resp := some { status := .ok, data := resData s.lresW s.lresH }, activity := [] } := by
  rw [← ha.fresh_respond]
  exact (exec_accepting_iff rfl ha).2 .getres

theorem exec_setres_accepting {w h : Nat} (hw : w < 4096) (hh : h < 4096) (ha : s.Accepting) :
    exec (.setres w h) s = .next
      { s with
        lresW := BitVec.ofNat 12 w, lresH := BitVec.ofNat 12 h
        resp := some { status := .ok, data := 0 }, activity := [] } := by
  have hr := (exec_accepting_iff (wellFormed_setres.2 ⟨hw, hh⟩) ha).2 (.setres w h)
  rw [hr, State.respond, State.fresh, ha.1]

theorem toNat_resData (w h : BitVec 12) : (resData w h).toNat = h.toNat * 2 ^ 12 + w.toNat := by
  have hw := w.isLt
  have hh := h.isLt
  rw [resData, BitVec.toNat_setWidth, BitVec.toNat_append, ← Nat.shiftLeft_add_eq_or_of_lt hw, Nat.shiftLeft_eq]
  omega

/-! ### LRES and SETPX -/

/-- SETPX reads neither LRES nor the last response, and leaves LRES as it was (R128). -/
theorem Ran.setpx_with_lres {lit : Bool} (h : Ran s (.setpx x y lit) t) (a b : BitVec 12) (r : Option Response) :
    Ran { s with lresW := a, lresH := b, resp := r } (.setpx x y lit) { t with lresW := a, lresH := b } := by
  cases h with
  | setpxDrawn hd => exact .setpxDrawn hd
  | setpxRefused hd => exact .setpxRefused hd

/-- An accepted SETPX does the same whatever LRES, the last response and the last activity are. -/
theorem exec_setpx_with_lres {lit : Bool} (ha : s.Accepting) (h : exec (.setpx x y lit) s = .next t)
    (a b : BitVec 12) (r : Option Response) (l : List PortAction) :
    exec (.setpx x y lit) { s with lresW := a, lresH := b, resp := r, activity := l } =
      .next { t with lresW := a, lresH := b } := by
  obtain ⟨hi, ⟨hh, -⟩ | ⟨-, hr⟩⟩ := exec_next h
  · exact absurd hh (by simp [ha.not_halted])
  · exact (exec_accepting_iff (s := { s with lresW := a, lresH := b, resp := r, activity := l }) hi ha).2
      (hr.setpx_with_lres a b r)

end

/-! ### The obligations of 40_display.md -/

/-- Settles O22. The value 0 is kept by a run that meets no SETPX to the cell. -/
theorem getpxReturnsTheCell : Obligations.GetpxReturnsTheCell := by
  unfold Obligations.GetpxReturnsTheCell
  refine ⟨fun x y hx hy => ?_, fun x y s hx hy ha => ?_, fun n c p coming t x y hx hy h hf he => ?_,
    fun x y lit s t ha h => ?_, fun x y s hx hy hd => ?_⟩
  · rw [toNat_encode (wellFormed_getpx.2 ⟨hx, hy⟩)]
    simp only [Instr.opcode, Instr.operandBits]
    omega
  · exact exec_getpx_accepting hx hy ha
  · have hav := fun e hm => Event.avoids_family (he e hm)
    have hcell : t.grid.cell x y = false := (keptExcept_cell false).runSteps (Grid.cell_blank x y) hav h
    refine ⟨_, exec_getpx_accepting hx hy (accepting_of_run_from_reset h hf hav), ?_⟩
    rw [hcell]
    rfl
  · obtain ⟨hi, ⟨hh, -⟩ | ⟨-, hr⟩⟩ := exec_next h
    · exact absurd hh (by simp [ha.not_halted])
    · obtain ⟨hx, hy⟩ := wellFormed_setpx.1 hi
      rw [hr.grid_eq]
      simp [Grid.cell_setCell, hx, hy]
  · exact exec_halted (wellFormed_getpx.2 ⟨hx, hy⟩) hd.halted

/-- Settles O24. The resolution (0, 0) of reset is kept by a run that meets no SETRES. -/
theorem getresReturnsTheResolution : Obligations.GetresReturnsTheResolution := by
  unfold Obligations.GetresReturnsTheResolution
  refine ⟨by decide, fun s ha => ?_, fun n c p coming t h hf he => ?_⟩
  · exact ⟨_, exec_getres_accepting ha, ⟨_, rfl, toNat_resData _ _⟩, rfl⟩
  · have hav := fun e hm => Event.avoids_family (f := fun r : Nat × Nat => .setres r.1 r.2)
      (by simpa using he e hm)
    obtain ⟨hw, hh⟩ := (keptExcept_lres 0 0).runSteps ⟨rfl, rfl⟩ hav h
    refine ⟨_, exec_getres_accepting (accepting_of_run_from_reset h hf hav), ?_⟩
    rw [hw, hh]
    rfl

/-- Settles O28: in HALT a SETPX draws nothing, in READY its pixel loop reads only the ports and the framebuffer. -/
theorem lresPlaysNoPart : Obligations.LresPlaysNoPart := by
  unfold Obligations.LresPlaysNoPart
  refine ⟨fun x y lit s t a b h => ?_, fun x y w h lit s t hw hh ha hx => ?_⟩
  · obtain ⟨hi, ⟨hh, rfl⟩ | ⟨ha, -⟩⟩ := exec_next h
    · exact exec_halted (s := { s with lresW := a, lresH := b }) hi hh
    · exact exec_setpx_with_lres ha h a b s.resp s.activity
  · exact ⟨_, exec_setres_accepting hw hh ha, exec_setpx_with_lres ha hx _ _ _ _⟩

/-- Settles O23: the operands of a well-formed SETRES fit the 12 bits of LRES_W and LRES_H. -/
theorem setresStoresTheResolution : Obligations.SetresStoresTheResolution := by
  unfold Obligations.SetresStoresTheResolution
  refine ⟨fun w h hw hh => ?_, fun w h s hw hh ha => ?_⟩
  · rw [toNat_encode (wellFormed_setres.2 ⟨hw, hh⟩)]
    simp only [Instr.opcode, Instr.operandBits]
    omega
  · refine ⟨_, exec_setres_accepting hw hh ha, ?_, ?_, ?_⟩
    · simpa using hw
    · simpa using hh
    · rfl

end Sys2Proof.Machine
end

section
/-! SUPPORT. Proofs about the keypad decoder (41_keypad.md). First what KEYP answers and what a command does to the key
record; then what a step and a run inside the debounce window keep; then the obligations. -/

namespace Sys2Proof.Machine

section
variable {i : Instr} {s t : State} {idx : Nat} {v : Word64}

/-! ### What KEYP answers -/

theorem wellFormed_keyp : (Instr.keyp idx).wellFormed = true ↔ idx < 256 := by simp [Instr.wellFormed]

theorem exec_keyp_accepting (hi : idx < 256) (ha : s.Accepting) :
    exec (.keyp idx) s = .next
      { s with
        resp := some { status := .ok, data := boolData (keyMatches s.keyHeld s.keyChar idx) }, activity := [] } := by
  rw [← ha.fresh_respond]
  exact (exec_accepting_iff (wellFormed_keyp.2 hi) ha).2 (.keyp idx)

theorem keyMatches_iff {held : Bool} {char : BitVec 16} :
    keyMatches held char idx = true ↔ held = true ∧ idx ≤ 15 ∧ keymap[idx]? = some char := by
  simp [keyMatches, and_assoc]

theorem boolData_eq_one_iff {b : Bool} : boolData b = 1 ↔ b = true := by cases b <;> decide

theorem boolData_eq_zero_or_one (b : Bool) : boolData b = 0 ∨ boolData b = 1 := by cases b <;> decide

/-! ### The key poll and the debounce window -/

/-- The poll gives an event exactly when it is acknowledged without error (R99, R244). -/
theorem State.poll_eq_value_iff {ev : KeyEvent} :
    s.poll = .value ev ↔
      ∃ k, s.inputs.key = some k ∧ k.err = false ∧ keyEvent s.config.exitScancode k.kind k.code = ev := by
  unfold State.poll
  cases s.inputs.key with
  | none => simp [pollKey]
  | some k => cases he : k.err <;> simp [pollKey, he]

theorem keyEvent_exit (code : BitVec 16) : keyEvent code 1 code = .exit := by simp [keyEvent]

theorem debounceExpired_iff {pressed : Word64} :
    debounceExpired v pressed = true ↔ 200000000 < (v - pressed).toNat :=
  decide_eq_true_iff

/-! ### What a command does to the key record -/

/-- KEY_HELD, KEY_CHAR and KEY_TIME (R23 to R25). -/
def State.keyRecord (s : State) : Bool × BitVec 16 × Word64 := (s.keyHeld, s.keyChar, s.keyTime)

theorem State.keyRecord_eq_iff :
    t.keyRecord = s.keyRecord ↔ t.keyHeld = s.keyHeld ∧ t.keyChar = s.keyChar ∧ t.keyTime = s.keyTime := by
  simp [State.keyRecord]

theorem Ran.config_eq (h : Ran s i t) : t.config = s.config := by
  cases h <;> simp [State.noteClock, State.draw]

/-- The key record is written by STEP alone, in two ways: a printable event is recorded with the time (R153), and a key
held beyond the window is released (R154). -/
theorem Ran.keyRecord_cases (h : Ran s i t) :
    t.keyRecord = s.keyRecord ∨
    (∃ code v, i = .step ∧ s.poll = .value (.printable code) ∧ s.clock = .value v ∧ t.keyRecord = (true, code, v)) ∨
    (∃ v, i = .step ∧ s.poll = .value .other ∧ s.clock = .value v ∧ debounceExpired v s.keyTime = true ∧
      t.keyRecord = (false, s.keyChar, s.keyTime)) := by
  cases h with
  | stepPress hp hc => exact .inr (.inl ⟨_, _, rfl, hp, hc, rfl⟩)
  | @stepTimeout v hp hk hc =>
    cases hx : debounceExpired v s.keyTime with
    | true => exact .inr (.inr ⟨v, rfl, hp, hc, hx, by simp [State.keyRecord, State.noteClock, hx]⟩)
    | false => exact .inl (by simp [State.keyRecord, State.noteClock, hx])
  | _ => exact .inl rfl

/-! ### Inside the debounce window -/

/-- A command word which, if it is a STEP, polls no event that is recorded or exits, and samples a time within the
window of a key pressed at `pressed` (R158). -/
def Event.WithinWindow (c : Config) (pressed : Word64) (e : Event) : Prop :=
  ∃ w ports, e = .command w ports ∧ (decode w = .ok .step →
    ∃ k v, ports.key = some k ∧ keyEvent c.exitScancode k.kind k.code = .other ∧
      sampleClock c.clockMode ports.cyc ports.cal = .value v ∧ (v - pressed).toNat ≤ 200000000)

theorem Event.WithinWindow.avoids_nothing {c : Config} {pressed : Word64} {e : Event} (h : e.WithinWindow c pressed) :
    e.Avoids fun _ => False := by
  obtain ⟨w, p, rfl, -⟩ := h
  exact ⟨w, p, rfl, fun _ _ => id⟩

/-- A command keeps the key record when, if it is a STEP, its poll gives nothing but `other` and its time is within the
window. -/
theorem Ran.keyRecord_eq (h : Ran s i t)
    (hw : i = .step → ∃ k v, s.inputs.key = some k ∧ keyEvent s.config.exitScancode k.kind k.code = .other ∧
      s.clock = .value v ∧ (v - s.keyTime).toNat ≤ 200000000) : t.keyRecord = s.keyRecord := by
  obtain hr | ⟨code, v, hi, hp, -, -⟩ | ⟨v, hi, -, hc, hx, -⟩ := h.keyRecord_cases
  · exact hr
  · obtain ⟨k, _, hk, hev, -, -⟩ := hw hi
    obtain ⟨k', hk', -, hev'⟩ := State.poll_eq_value_iff.1 hp
    cases hk.symm.trans hk'
    cases hev.symm.trans hev'
  · obtain ⟨_, v', -, -, hc', hle⟩ := hw hi
    cases hc.symm.trans hc'
    exact absurd (debounceExpired_iff.1 hx) (by omega)

theorem step_keeps_keyRecord (he : ∀ e ∈ s.events.head?, e.WithinWindow s.config s.keyTime) (h : step s = .next t) :
    t.keyRecord = s.keyRecord ∧ t.config = s.config := by
  obtain ⟨-, rfl⟩ | ⟨rest, hev, rfl⟩ | ⟨w, p, rest, hev, rfl | rfl | ⟨i, hd, -, hr⟩⟩ := step_cases h
  · exact ⟨rfl, rfl⟩
  · obtain ⟨w, p, hc, -⟩ := he .reset (by simp [hev])
    cases hc
  · exact ⟨rfl, rfl⟩
  · exact ⟨rfl, rfl⟩
  · obtain ⟨w, p, hc, hw⟩ := he (.command w p) (by simp [hev])
    cases hc
    exact ⟨hr.keyRecord_eq fun hi => hw (hi ▸ hd), hr.config_eq⟩

/-- What every step keeps whose event is in `E`, a run of such events keeps. -/
theorem runSteps_keeps {P : State → Prop} {E : Event → Prop} {n : Nat}
    (hstep : ∀ {s t}, P s → (∀ e ∈ s.events.head?, E e) → step s = .next t → P t) (hs : P s)
    (he : ∀ e ∈ s.events.take n, E e) (h : runSteps n s = .next t) : P t := by
  induction n generalizing s with
  | zero => cases h; exact hs
  | succ n ih =>
    obtain ⟨u, hu, h⟩ := runSteps_next h
    have htail := step_events hu
    cases hev : s.events with
    | nil => exact ih (hstep hs (by simp [hev]) hu) (by simp [htail, hev]) h
    | cons e rest =>
      simp only [hev, List.take_succ_cons, List.forall_mem_cons] at he
      exact ih (hstep hs (by simpa [hev] using he.1) hu) (by simpa [htail, hev] using he.2) h

/-- Over a run inside the window the key record stays (R158). -/
theorem runSteps_keeps_keyRecord {n : Nat} (he : ∀ e ∈ s.events.take n, e.WithinWindow s.config s.keyTime)
    (h : runSteps n s = .next t) : t.keyRecord = s.keyRecord := by
  refine (runSteps_keeps (P := fun u => u.keyRecord = s.keyRecord ∧ u.config = s.config) ?_ ⟨rfl, rfl⟩ he h).1
  rintro u v ⟨hr, hc⟩ hu hs
  obtain ⟨-, -, ht⟩ := State.keyRecord_eq_iff.1 hr
  obtain ⟨hr', hc'⟩ := step_keeps_keyRecord (by rwa [hc, ht]) hs
  exact ⟨hr'.trans hr, hc'.trans hc⟩

/-- A run inside the window that meets no fatal fault ends at a command boundary that accepts. -/
theorem accepting_of_run_within_window {n : Nat} (hi : s.Inv)
    (he : ∀ e ∈ s.events.take n, e.WithinWindow s.config s.keyTime) (h : runSteps n s = .next t)
    (hf : t.fatal = false) : t.Accepting := by
  have hs : s.ReadyUnlessFatal := fun h0 => hi.boundary.resolve_right fun hh => by
    simp [hi.fatalIffHalt.2 hh] at h0
  exact ⟨keptExcept_readyUnlessFatal.runSteps hs (fun e hm => (he e hm).avoids_nothing) h hf, hf⟩

/-! ### The release -/

/-- A STEP that polls no event and samples a time beyond the window releases the held key (R154). -/
theorem exec_step_releases (ha : s.Accepting) (hk : s.keyHeld = true) (hp : s.poll = .value .other)
    (hc : s.clock = .value v) (hx : 200000000 < (v - s.keyTime).toNat) :
    ∃ t, exec .step s = .next t ∧ t.keyHeld = false ∧ t.Accepting := by
  refine ⟨_, (exec_accepting_iff rfl ha).2 (.stepTimeout hp hk hc), ?_, rfl, ?_⟩
  · simp [State.noteClock, debounceExpired_iff.2 hx]
  · simpa [State.noteClock] using ha.2

end

/-! ### The obligations of 41_keypad.md -/

/-- Settles O33: inside the window every step keeps the key record, and the first STEP beyond it releases the key. -/
theorem heldKeyLastsTheDebounceWindow : Obligations.HeldKeyLastsTheDebounceWindow := by
  unfold Obligations.HeldKeyLastsTheDebounceWindow
  refine ⟨fun n s t hi hk h hf he => ?_, fun s k v ha hk hkey herr hev hc hx => ?_⟩
  · obtain ⟨hheld, hchar, htime⟩ := State.keyRecord_eq_iff.1 (runSteps_keeps_keyRecord he h)
    have ha := accepting_of_run_within_window hi he h hf
    refine ⟨hheld.trans hk, hchar, htime, fun idx hidx => ⟨_, exec_keyp_accepting hidx ha, ?_⟩⟩
    simp [boolData, keyMatches_iff, hheld, hk, hchar]
  · obtain ⟨t, ht, hheld, hat⟩ := exec_step_releases ha hk (State.poll_eq_value_iff.2 ⟨k, hkey, herr, hev⟩) hc hx
    refine ⟨t, ht, hheld, fun idx hidx => ⟨_, exec_keyp_accepting hidx hat, ?_⟩⟩
    simp [boolData, keyMatches_iff, hheld]

/-- Settles O29. -/
theorem keypAnswersTheHeldKey : Obligations.KeypAnswersTheHeldKey := by
  unfold Obligations.KeypAnswersTheHeldKey
  refine ⟨fun idx hi => ?_, fun idx s hi ha => ?_⟩
  · rw [toNat_encode (wellFormed_keyp.2 hi)]
    rfl
  · exact ⟨_, exec_keyp_accepting hi ha, boolData_eq_zero_or_one _, boolData_eq_one_iff.trans keyMatches_iff⟩

/-- Settles O32: on the exit event STEP ends at once, with neither `KeyPress` nor `KeyTimeout`. -/
theorem exitEventKeepsTheKeyRecord : Obligations.ExitEventKeepsTheKeyRecord := by
  unfold Obligations.ExitEventKeepsTheKeyRecord
  rintro s code ha hkey rfl
  have hp : s.poll = .value .exit := State.poll_eq_value_iff.2 ⟨_, hkey, rfl, keyEvent_exit _⟩
  exact ⟨_, (exec_accepting_iff rfl ha).2 (.stepExit hp), rfl, rfl, rfl, rfl⟩

end Sys2Proof.Machine
end

section
/-! SUPPORT. Proofs about the clock unit (42_clock.md). First when a clock read fails and what the fatal fault it raises
leaves; then the obligation on it. -/

namespace Sys2Proof.Machine

section
variable {s : State}

/-! ### A clock read that fails -/

/-- In CYCLE mode a clock read gives the time, whatever the calendar port answers (R171). -/
theorem sampleClock_cycle (cyc : Word64) (cal : Option CalAnswer) :
    sampleClock .cycle cyc cal = .value (cycleNow cyc) := rfl

/-- A clock read fails exactly when it is a calendar read acknowledged with `cal_err`, whatever its fields (R179). -/
theorem State.clock_eq_failed_iff :
    s.clock = .failed ↔ s.config.clockMode = .calendar ∧ ∃ c, s.inputs.cal = some c ∧ c.err = true := by
  unfold State.clock
  cases s.config.clockMode with
  | cycle => simp [sampleClock_cycle]
  | calendar =>
    cases s.inputs.cal with
    | none => simp [sampleClock]
    | some c => cases he : c.err <;> simp [sampleClock, he]

theorem State.noteClock_calendar (h : s.config.clockMode = .calendar) : s.noteClock = s.note .calendarRead := by
  rw [State.noteClock, h, clockAction]

/-- The first fatal fault records its cause, halts the block and answers FATAL; nothing else changes (R245). -/
theorem State.raiseFatal_of_not_fatal (h : s.fatal = false) (cause : FatalCause) :
    s.raiseFatal cause =
      { s with fsm := .halt, fatal := true, fcause := cause.code
               resp := some { status := .fatal, data := cause.code.setWidth 64 } } := by
  simp [State.raiseFatal, State.answerFatal, h]

/-- What a failed calendar read leaves of a block that had no fatal fault (R179, R245). -/
theorem State.noteClock_raiseFatal (hm : s.config.clockMode = .calendar) (hf : s.fatal = false) :
    s.noteClock.raiseFatal .clkFail =
      { s with fsm := .halt, fatal := true, fcause := FatalCause.clkFail.code
               resp := some { status := .fatal, data := FatalCause.clkFail.code.setWidth 64 }
               activity := s.activity ++ [.calendarRead] } := by
  rw [State.noteClock_calendar hm]
  exact State.raiseFatal_of_not_fatal (s := s.note .calendarRead) hf .clkFail

/-- A STEP asks for the time when its poll gives a printable event, or gives nothing to record while a key is held; when
that read fails it ends in Fatal(CLK_FAIL), with no key recorded, no timeout evaluated and no stall. -/
theorem Ran.step_clock_failed
    (hp : (∃ code, s.poll = .value (.printable code)) ∨ (s.poll = .value .other ∧ s.keyHeld = true))
    (hc : s.clock = .failed) : Ran s .step ((s.note .keyPoll).noteClock.raiseFatal .clkFail) := by
  obtain ⟨_, hp⟩ | ⟨hp, hk⟩ := hp
  · exact .stepPressFailed hp hc
  · exact .stepTimeoutFailed hp hk hc

end

/-! ### The obligation of R179 -/

/-- Settles O36: the failed read ends the command in `raiseFatal`, which in an accepting block records CLK_FAIL. -/
theorem clockFailureIsFatal : Obligations.ClockFailureIsFatal := by
  unfold Obligations.ClockFailureIsFatal
  refine ⟨fun s c ha hm hcal herr => ?_, fun cyc cal => ⟨_, sampleClock_cycle cyc cal⟩⟩
  have hc : s.fresh.clock = .failed := State.clock_eq_failed_iff.2 ⟨hm, c, hcal, herr⟩
  have hf : s.fatal = false := ha.2
  refine ⟨?_, fun k hkey hkerr hev => ?_⟩
  · rw [(exec_accepting_iff rfl ha).2 (.ticksFailed hc), State.noteClock_raiseFatal (s := s.fresh) hm hf]
    rfl
  · have hpoll {ev : KeyEvent} (h : keyEvent s.config.exitScancode k.kind k.code = ev) : s.fresh.poll = .value ev :=
      State.poll_eq_value_iff.2 ⟨k, hkey, hkerr, h⟩
    have hasks := hev.imp (Exists.imp fun _ => hpoll) (And.imp_left hpoll)
    rw [(exec_accepting_iff rfl ha).2 (.step_clock_failed hasks hc),
      State.noteClock_raiseFatal (s := s.fresh.note .keyPoll) hm hf]
    rfl

end Sys2Proof.Machine
end

section
/-! SUPPORT. Proofs about the boundary commands (43_entropy_sound.md). First which words of opcode 8 are illegal and
what an accepted BEEP leaves; then the obligation on BEEP. -/

namespace Sys2Proof.Machine

section
variable {i : Instr} {s : State} {w : Word}

/-! ### BEEP -/

/-- In format N every bit of 27:0 is reserved (R94). -/
theorem decodeN_of_reserved_set (h : bits w 27 0 ≠ 0) : decodeN w i = .error .reservedBits := by
  simp [decodeN, legalWhen, h]

theorem decode_opcode_beep (h : bits w 31 28 = 8) : decode w = decodeN w .beep := by
  simp only [decode, h]

theorem exec_beep_accepting (ha : s.Accepting) :
    exec .beep s = .next { s with resp := some { status := .ok, data := 0 }, activity := [] } := by
  rw [← ha.fresh_respond]
  exact (exec_accepting_iff rfl ha).2 .beep

end

/-! ### The obligation of R201 on BEEP -/

/-- Settles O41: an accepted BEEP only responds, and READY is already its `fsm`; opcode 8 has format N. -/
theorem beepDoesNothing : Obligations.BeepDoesNothing := by
  unfold Obligations.BeepDoesNothing
  refine ⟨by decide, fun s ha => exec_beep_accepting ha, fun s hd => ?_, fun w hop hres => ?_⟩
  · exact exec_halted rfl hd.halted
  · rw [decode_opcode_beep hop]
    exact decodeN_of_reserved_set hres

end Sys2Proof.Machine
end

section
/-! SUPPORT. Proofs about the pacing unit (44_pacing.md). First what each path of STEP leaves and answers; then the step
that ends a run and what a run keeps up to it; then the obligations on STEP and on the end of a run. -/

namespace Sys2Proof.Machine

section
variable {i : Instr} {s t u : State} {v : Word64} {exitScancode code : BitVec 16} {kind : BitVec 2}

/-! ### The event polled -/

theorem keyEvent_eq_exit_iff : keyEvent exitScancode kind code = .exit ↔ kind = 1 ∧ code = exitScancode := by
  unfold keyEvent
  split_ifs <;> simp_all

/-- Any character code is printable (R213). -/
theorem keyEvent_printable : keyEvent exitScancode 2 code = .printable code := by simp [keyEvent]

/-- No event, a special event that is not the exit event and the reserved kind are taken alike (R214). -/
theorem keyEvent_other (h : kind = 0 ∨ (kind = 1 ∧ code ≠ exitScancode) ∨ kind = 3) :
    keyEvent exitScancode kind code = .other := by
  obtain rfl | ⟨rfl, hc⟩ | rfl := h
  · simp [keyEvent]
  · simp [keyEvent, hc]
  · simp [keyEvent]

/-! ### The end of a STEP -/

/-- A command that has not left READY responds without any other change. -/
theorem State.respond_of_ready (h : s.fsm = .ready) (st : Status) (d : Word64) :
    s.respond st d = { s with resp := some { status := st, data := d } } := by
  simp [State.respond, ← h]

/-- The stall and the answer terminate = 0 (R215), at a command boundary. -/
theorem State.finishStep_of_ready (h : s.fsm = .ready) :
    s.finishStep =
      { s with stallCnt := 0, resp := some { status := .ok, data := 0 }
               activity := s.activity ++ [.stall (s.config.clkHz / 600)] } :=
  State.respond_of_ready (s := s.stall) h .ok 0

/-- `KeyTimeout(t)` of a held key: it stays held inside the window, its limit included (R154). -/
theorem State.keyTimeout_of_held (h : s.keyHeld = true) :
    s.keyTimeout v = { s with keyHeld := decide ((v - s.keyTime).toNat ≤ 200000000) } := by
  unfold State.keyTimeout
  split
  next hx =>
    have hlt := debounceExpired_iff.1 hx
    rw [decide_eq_false (by omega)]
  next hx =>
    have hle := mt debounceExpired_iff.2 hx
    rw [decide_eq_true (by omega), ← h]

/-- What a STEP answers: FATAL after a failed port access; OK with 1 on the exit event, with nothing changed but the
response; OK with 0 on any other event (R216). -/
theorem Ran.step_answer (h : Ran s .step t) :
    (t.fatal = true ∧ ∃ d, t.resp = some { status := .fatal, data := d }) ∨
    (s.poll = .value .exit ∧ t = (s.note .keyPoll).respond .ok 1) ∨
    (∃ ev, s.poll = .value ev ∧ ev ≠ .exit ∧ t.resp = some { status := .ok, data := 0 }) := by
  cases h with
  | stepFailed hp => exact .inl ⟨rfl, _, rfl⟩
  | stepExit hp => exact .inr (.inl ⟨hp, rfl⟩)
  | stepPress hp hc => exact .inr (.inr ⟨_, hp, KeyEvent.noConfusion, rfl⟩)
  | stepPressFailed hp hc => exact .inl ⟨rfl, _, rfl⟩
  | stepTimeout hp hk hc => exact .inr (.inr ⟨_, hp, KeyEvent.noConfusion, rfl⟩)
  | stepTimeoutFailed hp hk hc => exact .inl ⟨rfl, _, rfl⟩
  | stepIdle hp hk => exact .inr (.inr ⟨_, hp, KeyEvent.noConfusion, rfl⟩)

/-! ### The step that ends a run -/

/-- A pending word that is decoded to `i` makes the step run `i`. -/
theorem step_of_decode {w : Word} {ports : Inputs} {rest : List Event} (he : s.events = .command w ports :: rest)
    (hd : decode w = .ok i) : step s = exec i (s.present ports rest) := by
  simp only [step, he, acceptWord, hd]

/-- Only a block that accepts answers terminate, and all it changes is the response (R212). -/
theorem AnswersTerminate.accepting_and_eq (h : AnswersTerminate s t) :
    s.Accepting ∧
      ∃ ports rest, t = ((s.present ports rest).fresh.note .keyPoll).respond .ok 1 := by
  obtain ⟨⟨w, ports, rest, he, hd⟩, hstep, hresp⟩ := h
  obtain ⟨-, ⟨-, rfl⟩ | ⟨ha, hran⟩⟩ := exec_next ((step_of_decode he hd).symm.trans hstep)
  · simp at hresp
  · refine ⟨ha, ports, rest, ?_⟩
    obtain ⟨-, d, hd⟩ | ⟨-, rfl⟩ | ⟨ev, -, -, hd⟩ := hran.step_answer
    · simp [hd] at hresp
    · rfl
    · simp [hd] at hresp

theorem AnswersTerminate.keeps_block (h : AnswersTerminate s t) : s.SameBlock t ∧ t.fb = s.fb ∧ t.Accepting := by
  obtain ⟨ha, ports, rest, rfl⟩ := h.accepting_and_eq
  refine ⟨?_, rfl, rfl, ha.2⟩
  rw [State.SameBlock, State.respond_of_ready (s := (s.present ports rest).fresh.note .keyPoll) ha.1]
  rfl

theorem State.Stuck.step_ne_next (h : s.Stuck) : step s ≠ .next t := by
  obtain h | h | h := h <;> simp [h]

/-! ### What a run keeps up to its end -/

theorem runSteps_events {n : Nat} (h : runSteps n s = .next t) : t.events = s.events.drop n := by
  induction n generalizing s with
  | zero => cases h; rfl
  | succ n ih =>
    obtain ⟨u, hu, h⟩ := runSteps_next h
    rw [ih h, step_events hu, List.drop_tail]

theorem Event.avoids_nothing {e : Event} (h : e ≠ .reset) : e.Avoids fun _ => False := by
  cases e with
  | command w ports => exact ⟨w, ports, rfl, fun _ _ => id⟩
  | reset => exact absurd rfl h

/-- No command takes FATAL back (R247). -/
theorem Ran.faulted (h : Ran s i t) (hf : s.Faulted) : t.Faulted := by
  have hf : s.fatal = true := hf
  cases h <;> simp [State.Faulted, State.noteClock, State.draw, hf]

theorem keptExcept_faulted {F : Instr → Prop} : KeptExcept F State.Faulted where
  present _ _ h := h
  answerFatal h := h
  respond h := h
  ran _ _ hr h := hr.faulted h

/-- A run that is faulted at step `k` and meets no reset is faulted at every later step. -/
theorem faulted_of_runSteps {k m : Nat} (hno : Event.reset ∉ s.events.take (k + m)) (hs : runSteps k s = .next u)
    (hu : u.Faulted) (h : runSteps m u = .next t) : t.Faulted := by
  refine keptExcept_faulted.runSteps hu (fun e he => Event.avoids_nothing ?_) h
  rintro rfl
  rw [runSteps_events hs, List.take_drop] at he
  exact hno (List.mem_of_mem_drop he)

/-! ### The end of a run -/

/-- The first of the steps that answer terminate ends the run. -/
theorem exists_runEndsAt {n : Nat} (hs : s.JustReset) (hno : Event.reset ∉ s.events.take n)
    (h : ∃ u, runSteps n s = .next u ∧ ∃ t, AnswersTerminate u t) : ∃ m ≤ n, ∃ t, RunEndsAt s m t := by
  classical
  have hex : ∃ m u, runSteps m s = .next u ∧ ∃ t, AnswersTerminate u t := ⟨n, h⟩
  have hle : Nat.find hex ≤ n := Nat.find_min' hex h
  obtain ⟨u, hu, t, ht⟩ := Nat.find_spec hex
  exact ⟨_, hle, t,
    { begins := hs
      oneRun := fun hm => hno ((List.take_sublist_take_left hle).subset hm)
      ends := ⟨u, hu, ht⟩
      first := fun k hk u v hu hv => Nat.find_min hex hk ⟨u, hu, v, hv⟩ }⟩

theorem RunEndsAt.not_lt {n m : Nat} (hn : RunEndsAt s n t) (hm : RunEndsAt s m u) : ¬ n < m := fun hlt => by
  obtain ⟨v, hv, ht⟩ := hn.ends
  exact hm.first n hlt v t hv ht

theorem RunEndsAt.unique {n m : Nat} (hn : RunEndsAt s n t) (hm : RunEndsAt s m u) : n = m ∧ t = u := by
  obtain rfl : n = m := Nat.le_antisymm (Nat.not_lt.1 (hm.not_lt hn)) (Nat.not_lt.1 (hn.not_lt hm))
  obtain ⟨v, hv, ht⟩ := hn.ends
  obtain ⟨v', hv', hu⟩ := hm.ends
  cases hv.symm.trans hv'
  cases ht.step.symm.trans hu.step
  exact ⟨rfl, rfl⟩

/-- From a faulted or stuck state on no step of the run answers terminate: a faulted run stays faulted, where every
answer is FATAL, and a stuck one makes no further step. -/
theorem RunEndsAt.not_of_faulted_or_stuck {n k : Nat} (hu : runSteps k s = .next u) (hstop : u.Faulted ∨ u.Stuck)
    (hk : k ≤ n) : ¬ RunEndsAt s n t := fun hend => by
  obtain ⟨v, hv, ht⟩ := hend.ends
  obtain ⟨m, rfl⟩ := Nat.exists_eq_add_of_le hk
  obtain ⟨u', hu', hrest⟩ := runSteps_add hv
  cases hu.symm.trans hu'
  obtain hf | hst := hstop
  · obtain ⟨⟨-, hlive⟩, -⟩ := ht.accepting_and_eq
    exact absurd (faulted_of_runSteps hend.oneRun hu hf hrest) (by simp [hlive])
  · cases m with
    | zero => cases hrest; exact hst.step_ne_next ht.step
    | succ m =>
      obtain ⟨w, hw, -⟩ := runSteps_next hrest
      exact hst.step_ne_next hw

end

/-! ### The obligations of 44_pacing.md -/

/-- Settles O56: the end is the least step that answers terminate; such a step starts from an accepting block, which
no faulted run reaches again, and leaves it accepting. -/
theorem runEndsAtTheFirstTerminate : Obligations.RunEndsAtTheFirstTerminate := by
  unfold Obligations.RunEndsAtTheFirstTerminate
  refine ⟨fun s u t n hs hno hu ht => exists_runEndsAt hs hno ⟨u, hu, t, ht⟩, fun s t t' n m hn hm => hn.unique hm,
    fun s t n _ h => ?_, fun s u t n k _ hu hstop hk => RunEndsAt.not_of_faulted_or_stuck hu hstop hk⟩
  obtain ⟨u, hu, ht⟩ := h.ends
  exact ⟨u, hu, ht.keeps_block⟩

/-- Settles O42: of the paths that raise no fatal fault only the exit path answers 1. -/
theorem terminateExactlyOnExit : Obligations.TerminateExactlyOnExit := by
  unfold Obligations.TerminateExactlyOnExit
  intro s t ha h hf
  obtain ⟨hfatal, -⟩ | ⟨hp, rfl⟩ | ⟨ev, hp, hne, hresp⟩ := (ran_of_exec_step ha h).step_answer
  · simp [hfatal] at hf
  · obtain ⟨k, hkey, -, hev⟩ := State.poll_eq_value_iff.1 hp
    have hexit : k.kind = 1 ∧ k.code = s.config.exitScancode := keyEvent_eq_exit_iff.1 hev
    exact ⟨k, hkey, by rw [if_pos hexit]; rfl⟩
  · obtain ⟨k, hkey, -, rfl⟩ := State.poll_eq_value_iff.1 hp
    have hother : ¬(k.kind = 1 ∧ k.code = s.config.exitScancode) := mt keyEvent_eq_exit_iff.2 hne
    exact ⟨k, hkey, by rw [if_neg hother, hresp]⟩

/-- Settles O44: the recorded key is what the stall and the answer find. -/
theorem stepPrintablePath : Obligations.StepPrintablePath := by
  unfold Obligations.StepPrintablePath
  intro s k v ha hkey herr hkind hc
  have hp : s.fresh.poll = .value (.printable k.code) :=
    State.poll_eq_value_iff.2 ⟨k, hkey, herr, hkind ▸ keyEvent_printable⟩
  rw [(exec_accepting_iff rfl ha).2 (.stepPress hp hc), State.finishStep_of_ready (by exact ha.1)]
  rfl

/-- Settles O45: in Idle no clock is read, in Held the clock sample decides whether the key stays held. -/
theorem stepOtherwisePath : Obligations.StepOtherwisePath := by
  unfold Obligations.StepOtherwisePath
  intro s k ha hkey herr hkind
  have hp : s.fresh.poll = .value .other := State.poll_eq_value_iff.2 ⟨k, hkey, herr, keyEvent_other hkind⟩
  refine ⟨fun hidle => ?_, fun hheld v hc => ?_⟩
  · rw [(exec_accepting_iff rfl ha).2 (.stepIdle hp hidle), State.finishStep_of_ready (by exact ha.1)]
    rfl
  · rw [(exec_accepting_iff rfl ha).2 (.stepTimeout hp hheld hc), State.keyTimeout_of_held (by exact hheld),
      State.finishStep_of_ready (by exact ha.1)]
    rfl

end Sys2Proof.Machine
end

section
/-! SUPPORT. Proofs about faults and reset (60_exceptions.md). First that every word the decoder accepts is of a
well-formed command, so that a dead block can refuse none; then what a step and a run leave of a dead block; then the
obligations. -/

namespace Sys2Proof.Machine

section
variable {i j : Instr} {s t u : State} {w : Word}

/-! ### A word that decodes is of a well-formed command -/

theorem bits_lt (w : Word) (hi lo : Nat) : bits w hi lo < 2 ^ (hi + 1 - lo) := Nat.mod_lt _ (Nat.two_pow_pos _)

theorem legalWhen_eq_ok {reservedClear : Bool} (h : legalWhen reservedClear i = .ok j) : i = j := by
  unfold legalWhen at h
  split at h
  · exact Except.ok.inj h
  · cases h

/-- The fields of each format bound the operands it carries (R93). -/
theorem wellFormed_of_decode (h : decode w = .ok i) : i.wellFormed = true := by
  unfold decode at h
  split at h
  case h_1 | h_6 | h_7 | h_8 | h_9 => rw [← legalWhen_eq_ok h]; rfl
  case h_2 => rw [← legalWhen_eq_ok h]; exact wellFormed_keyp.2 (bits_lt w 7 0)
  case h_3 => rw [← legalWhen_eq_ok h]; exact wellFormed_setpx.2 ⟨bits_lt w 5 0, bits_lt w 12 8⟩
  case h_4 => rw [← legalWhen_eq_ok h]; exact wellFormed_getpx.2 ⟨bits_lt w 5 0, bits_lt w 12 8⟩
  case h_5 => rw [← legalWhen_eq_ok h]; exact wellFormed_setres.2 ⟨bits_lt w 11 0, bits_lt w 23 12⟩
  case h_10 => cases h

/-! ### What a step leaves of a dead block -/

/-- In HALT an illegal word, too, is answered FATAL (R251). -/
theorem execIllegal_halted (h : s.halted = true) : execIllegal s = .next s.fresh.answerFatal := if_pos h

/-- A dead block answers every word, legal or illegal, FATAL (R246, R251). -/
theorem State.Dead.step_command (hd : s.Dead) {ports : Inputs} {rest : List Event}
    (he : s.events = .command w ports :: rest) : step s = .next (s.present ports rest).fresh.answerFatal := by
  cases hw : decode w with
  | ok i =>
    rw [step_of_decode he hw]
    exact exec_halted (wellFormed_of_decode hw) hd.halted
  | error e =>
    simp only [step, he, acceptWord, hw]
    exact execIllegal_halted hd.halted

theorem step_of_reset {rest : List Event} (he : s.events = .reset :: rest) :
    step s = .next (s.present s.inputs rest).rst := by
  simp only [step, he]

/-- From `s` to `t` neither the block's own state nor the framebuffer changes, and no port activity is started. -/
structure State.Untouched (s t : State) : Prop where
  block : s.SameBlock t
  fb : t.fb = s.fb
  quiet : t.activity = [] ∨ t.activity = s.activity

theorem State.Untouched.refl (s : State) : s.Untouched s := ⟨rfl, rfl, .inr rfl⟩

theorem State.Untouched.trans (hu : s.Untouched u) (ht : u.Untouched t) : s.Untouched t where
  block := by
    have hblock := ht.block
    rw [hu.block] at hblock
    exact hblock
  fb := ht.fb.trans hu.fb
  quiet := ht.quiet.elim .inl fun h => h ▸ hu.quiet

theorem State.Untouched.fcause_eq (h : s.Untouched t) : t.fcause = s.fcause := (congrArg State.fcause h.block :)

theorem State.Untouched.dead (h : s.Untouched t) (hd : s.Dead) : t.Dead :=
  ⟨(congrArg State.fsm h.block).trans hd.1, (congrArg State.fatal h.block).trans hd.2⟩

/-- No step but `rst` touches a dead block (R246, R247). -/
theorem State.Dead.step_untouched (hd : s.Dead) (hno : ∀ rest, s.events ≠ .reset :: rest) :
    ∃ t, step s = .next t ∧ s.Untouched t := by
  cases he : s.events with
  | nil => exact ⟨s, by simp only [step, he], .refl s⟩
  | cons e rest =>
    cases e with
    | command w ports => exact ⟨_, hd.step_command he, rfl, rfl, .inl rfl⟩
    | reset => exact absurd he (hno rest)

/-- A run without `rst` does not touch a dead block. -/
theorem State.Dead.runSteps_untouched {n : Nat} (hd : s.Dead) (hno : Event.reset ∉ s.events.take n) :
    ∃ t, runSteps n s = .next t ∧ s.Untouched t := by
  induction n generalizing s with
  | zero => exact ⟨s, rfl, .refl s⟩
  | succ n ih =>
    have hhead : ∀ rest, s.events ≠ .reset :: rest := fun rest he => hno (by simp [he])
    obtain ⟨u, hu, hsu⟩ := hd.step_untouched hhead
    have htail : Event.reset ∉ u.events.take n := by
      rw [step_events hu, ← List.drop_one, List.take_drop, Nat.add_comm]
      exact fun hm => hno (List.mem_of_mem_drop hm)
    obtain ⟨t, ht, hut⟩ := ih (hsu.dead hd) htail
    exact ⟨t, (runSteps_succ n hu).trans ht, hsu.trans hut⟩

/-! ### A key poll that fails -/

/-- The poll fails exactly when it is acknowledged with `key_err`, whatever kind and code it carries (R244). -/
theorem State.poll_eq_failed_iff : s.poll = .failed ↔ ∃ k, s.inputs.key = some k ∧ k.err = true := by
  unfold State.poll
  cases s.inputs.key with
  | none => simp [pollKey]
  | some k => cases he : k.err <;> simp [pollKey, he]

end

/-! ### The obligations of 60_exceptions.md -/

/-- Settles O9: a dead block is touched by `rst` alone, and what is untouched stays dead with its cause. -/
theorem onlyResetLeavesHalt : Obligations.OnlyResetLeavesHalt := by
  unfold Obligations.OnlyResetLeavesHalt
  refine ⟨fun n s hd hno => ?_, fun s t hd h hlive => ?_, fun s rest he => ⟨_, step_of_reset he, rfl⟩⟩
  · obtain ⟨t, ht, hst⟩ := hd.runSteps_untouched hno
    exact ⟨t, ht, hst.dead hd, hst.fcause_eq, hst.block, hst.fb, hst.quiet⟩
  · by_contra hno
    obtain ⟨u, hu, hsu⟩ := hd.step_untouched (not_exists.1 hno)
    cases h.symm.trans hu
    exact hlive (hsu.dead hd)

/-- Settles O46: a failed poll ends STEP in `raiseFatal`, which in an accepting block records KEY_FAIL. -/
theorem keyPollFailureIsFatal : Obligations.KeyPollFailureIsFatal := by
  unfold Obligations.KeyPollFailureIsFatal
  intro s k ha hkey herr
  have hp : s.fresh.poll = .failed := State.poll_eq_failed_iff.2 ⟨k, hkey, herr⟩
  rw [(exec_accepting_iff rfl ha).2 (.stepFailed hp),
    State.raiseFatal_of_not_fatal (s := s.fresh.note .keyPoll) ha.2]
  rfl

end Sys2Proof.Machine
end

section
/-! SUPPORT. Proofs about the encoding (30_encoding.md). First what a word is in each format; then which words decode,
and the round trip of a command through its word; then the mask-and-match table and the illegal words; then the
obligations. -/

namespace Sys2Proof.Machine

section
variable {i j : Instr} {w m : Word}

/-! ### The formats: a word is the sum of its fields (R92) -/

theorem toNat_formatN (w : Word) : w.toNat = bits w 31 28 * 2 ^ 28 + bits w 27 0 := by
  have := w.isLt
  simp only [bits]
  omega

theorem toNat_formatK (w : Word) : w.toNat = bits w 31 28 * 2 ^ 28 + bits w 27 8 * 2 ^ 8 + bits w 7 0 := by
  have := w.isLt
  simp only [bits]
  omega

theorem toNat_formatQ (w : Word) :
    w.toNat = bits w 31 28 * 2 ^ 28 + bits w 27 13 * 2 ^ 13 + bits w 12 8 * 2 ^ 8 + bits w 7 6 * 2 ^ 6
      + bits w 5 0 := by
  have := w.isLt
  simp only [bits]
  omega

theorem toNat_formatP (w : Word) :
    w.toNat = bits w 31 28 * 2 ^ 28 + bits w 27 17 * 2 ^ 17 + bits w 16 16 * 2 ^ 16 + bits w 15 13 * 2 ^ 13
      + bits w 12 8 * 2 ^ 8 + bits w 7 6 * 2 ^ 6 + bits w 5 0 := by
  have hsplit : bits w 27 13 = bits w 27 17 * 2 ^ 4 + bits w 16 16 * 2 ^ 3 + bits w 15 13 := by
    simp only [bits]
    omega
  rw [toNat_formatQ w, hsplit]
  omega

theorem toNat_formatR (w : Word) :
    w.toNat = bits w 31 28 * 2 ^ 28 + bits w 27 24 * 2 ^ 24 + bits w 23 12 * 2 ^ 12 + bits w 11 0 := by
  have := w.isLt
  simp only [bits]
  omega

/-- The reserved bits of the command's format are 0 (R94). -/
def ReservedClear (w : Word) : Instr → Prop
  | .keyp _ => bits w 27 8 = 0
  | .setpx _ _ _ => bits w 27 17 = 0 ∧ bits w 15 13 = 0 ∧ bits w 7 6 = 0
  | .getpx _ _ => bits w 27 13 = 0 ∧ bits w 7 6 = 0
  | .setres _ _ => bits w 27 24 = 0
  | _ => bits w 27 0 = 0

/-- The command of `i`'s kind with the operands that the fields of `w` hold (R92). -/
def fieldsOf (w : Word) : Instr → Instr
  | .keyp _ => .keyp (bits w 7 0)
  | .setpx _ _ _ => .setpx (bits w 5 0) (bits w 12 8) (decide (bits w 16 16 = 1))
  | .getpx _ _ => .getpx (bits w 5 0) (bits w 12 8)
  | .setres _ _ => .setres (bits w 11 0) (bits w 23 12)
  | i => i

/-! ### Which words decode -/

theorem legalWhen_eq_ok_iff {clear : Bool} : legalWhen clear i = .ok j ↔ clear = true ∧ i = j := by
  cases clear <;> simp [legalWhen]

theorem legalWhen_eq_error_iff {clear : Bool} {e : Illegal} :
    legalWhen clear i = .error e ↔ clear = false ∧ e = .reservedBits := by
  cases clear <;> simp [legalWhen, eq_comm]

/-- A word with an assigned opcode is the command its fields hold, if the reserved bits of the format are 0. -/
theorem decode_of_opcode (h : bits w 31 28 = i.opcode) (hc : ReservedClear w i) : decode w = .ok (fieldsOf w i) := by
  cases i <;> simp only [Instr.opcode, ReservedClear] at h hc <;>
    simp [decode, h, decodeN, decodeK, decodeP, decodeQ, decodeR, legalWhen, fieldsOf, hc]

/-- Nothing else decodes. -/
theorem opcode_of_decode (h : decode w = .ok i) :
    bits w 31 28 = i.opcode ∧ ReservedClear w i ∧ fieldsOf w i = i := by
  unfold decode at h
  split at h
  case h_10 => cases h
  all_goals
    rename_i hop
    obtain ⟨hc, rfl⟩ := legalWhen_eq_ok_iff.1 h
    exact ⟨hop, by simpa [ReservedClear, and_assoc] using hc, rfl⟩

/-- The word of a well-formed command has its opcode, the reserved bits 0, and the operands in their fields (R92). -/
theorem fields_encode (h : i.wellFormed = true) :
    bits (encode i) 31 28 = i.opcode ∧ ReservedClear (encode i) i ∧ fieldsOf (encode i) i = i := by
  have hw := toNat_encode h
  cases i with
  | keyp idx =>
    have := wellFormed_keyp.1 h
    simp only [bits, ReservedClear, fieldsOf, hw, Instr.opcode, Instr.operandBits, Instr.keyp.injEq]
    omega
  | setpx x y lit =>
    have := wellFormed_setpx.1 h
    cases lit <;>
      simp only [bits, ReservedClear, fieldsOf, hw, Instr.opcode, Instr.operandBits, Instr.setpx.injEq,
        Bool.toNat_true, Bool.toNat_false, decide_eq_true_eq, decide_eq_false_iff_not] <;>
      omega
  | getpx x y =>
    have := wellFormed_getpx.1 h
    simp only [bits, ReservedClear, fieldsOf, hw, Instr.opcode, Instr.operandBits, Instr.getpx.injEq]
    omega
  | setres x y =>
    have := wellFormed_setres.1 h
    simp only [bits, ReservedClear, fieldsOf, hw, Instr.opcode, Instr.operandBits, Instr.setres.injEq]
    omega
  | _ => exact ⟨rfl, rfl, rfl⟩

theorem decode_encode (h : i.wellFormed = true) : decode (encode i) = .ok i := by
  obtain ⟨hop, hc, hf⟩ := fields_encode h
  rw [decode_of_opcode hop hc, hf]

/-- The one bit of `lit` (R92). -/
theorem toNat_litField : (decide (bits w 16 16 = 1)).toNat = bits w 16 16 := by
  obtain h | h : bits w 16 16 = 0 ∨ bits w 16 16 = 1 := by have := bits_lt w 16 16; omega
  · simp [h]
  · simp [h]

/-- The opcode and the operand fields are all of a word whose reserved bits are 0. -/
theorem encode_fieldsOf (hop : bits w 31 28 = i.opcode) (hc : ReservedClear w i) : encode (fieldsOf w i) = w := by
  apply BitVec.eq_of_toNat_eq
  rw [toNat_encode (wellFormed_of_decode (decode_of_opcode hop hc))]
  cases i <;>
    simp only [Instr.opcode, ReservedClear, fieldsOf, Instr.operandBits, toNat_litField] at hop hc ⊢
  case keyp => rw [toNat_formatK w, hop, hc]; omega
  case setpx => rw [toNat_formatP w, hop, hc.1, hc.2.1, hc.2.2]; omega
  case getpx => rw [toNat_formatQ w, hop, hc.1, hc.2]; omega
  case setres => rw [toNat_formatR w, hop, hc]; omega
  all_goals rw [toNat_formatN w, hop, hc]

theorem encode_of_decode (h : decode w = .ok i) : encode i = w := by
  obtain ⟨hop, hc, hf⟩ := opcode_of_decode h
  rw [← encode_fieldsOf hop hc, hf]

/-! ### The mask-and-match table -/

theorem bits_and (w m : Word) (hi lo : Nat) : bits (w &&& m) hi lo = bits w hi lo &&& bits m hi lo := by
  simp only [bits, BitVec.toNat_and, Nat.and_div_two_pow, Nat.and_mod_two_pow]

/-- A field that the mask selects whole. -/
theorem bits_and_of_ones (w : Word) (hi lo : Nat) (h : bits m hi lo = 2 ^ (hi + 1 - lo) - 1) :
    bits (w &&& m) hi lo = bits w hi lo := by
  rw [bits_and, h, Nat.and_two_pow_sub_one_of_lt_two_pow (bits_lt w hi lo)]

/-- A field that the mask leaves out. -/
theorem bits_and_of_zero (w : Word) (hi lo : Nat) (h : bits m hi lo = 0) : bits (w &&& m) hi lo = 0 := by
  rw [bits_and, h, Nat.and_zero]

/-- A row's mask selects the opcode and the reserved bits, and its match asks for the opcode and zeros (R92). -/
theorem row_hits_iff : i.row.hits w = true ↔ bits w 31 28 = i.opcode ∧ ReservedClear w i := by
  rw [Row.hits, decide_eq_true_iff, ← BitVec.toNat_inj]
  cases i <;> simp only [Instr.row, BitVec.toNat_ofNat, Instr.opcode, ReservedClear]
  case keyp =>
    rw [toNat_formatK, bits_and_of_ones w 31 28 (by simp [bits]), bits_and_of_ones w 27 8 (by simp [bits]),
      bits_and_of_zero w 7 0 (by simp [bits])]
    have := bits_lt w 27 8
    omega
  case setpx =>
    rw [toNat_formatP, bits_and_of_ones w 31 28 (by simp [bits]), bits_and_of_ones w 27 17 (by simp [bits]),
      bits_and_of_zero w 16 16 (by simp [bits]), bits_and_of_ones w 15 13 (by simp [bits]),
      bits_and_of_zero w 12 8 (by simp [bits]), bits_and_of_ones w 7 6 (by simp [bits]),
      bits_and_of_zero w 5 0 (by simp [bits])]
    have := bits_lt w 27 17
    have := bits_lt w 15 13
    have := bits_lt w 7 6
    omega
  case getpx =>
    rw [toNat_formatQ, bits_and_of_ones w 31 28 (by simp [bits]), bits_and_of_ones w 27 13 (by simp [bits]),
      bits_and_of_zero w 12 8 (by simp [bits]), bits_and_of_ones w 7 6 (by simp [bits]),
      bits_and_of_zero w 5 0 (by simp [bits])]
    have := bits_lt w 27 13
    have := bits_lt w 7 6
    omega
  case setres =>
    rw [toNat_formatR, bits_and_of_ones w 31 28 (by simp [bits]), bits_and_of_ones w 27 24 (by simp [bits]),
      bits_and_of_zero w 23 12 (by simp [bits]), bits_and_of_zero w 11 0 (by simp [bits])]
    have := bits_lt w 27 24
    omega
  all_goals
    rw [toNat_formatN, bits_and_of_ones w 31 28 (by simp [bits]), bits_and_of_ones w 27 0 (by simp [bits])]
    have := bits_lt w 27 0
    omega

theorem row_fieldsOf : (fieldsOf w i).row = i.row := by cases i <;> rfl

theorem row_mem_rows (i : Instr) : i.row ∈ rows := by cases i <;> simp [rows, Instr.row]

theorem exists_of_mem_rows {r : Row} (h : r ∈ rows) : ∃ i : Instr, i.row = r := by
  simp only [rows, List.mem_cons, List.not_mem_nil, or_false] at h
  obtain h | h | h | h | h | h | h | h | h := h <;> exact ⟨_, h.symm⟩

/-- A word is of a row exactly when it decodes to a command of the row. -/
theorem row_hits_iff_decode {r : Row} (hr : r ∈ rows) : r.hits w = true ↔ ∃ i, decode w = .ok i ∧ i.row = r := by
  constructor
  · intro h
    obtain ⟨i, rfl⟩ := exists_of_mem_rows hr
    obtain ⟨hop, hc⟩ := row_hits_iff.1 h
    exact ⟨_, decode_of_opcode hop hc, row_fieldsOf⟩
  · rintro ⟨i, hd, rfl⟩
    obtain ⟨hop, hc, -⟩ := opcode_of_decode hd
    exact row_hits_iff.2 ⟨hop, hc⟩

/-! ### Illegal words -/

theorem decode_eq_unassigned_iff :
    decode w = .error .unassignedOpcode ↔ bits w 31 28 = 0 ∨ 0xA ≤ bits w 31 28 := by
  unfold decode
  split
  case h_10 =>
    simp only [imp_false] at *
    simp only [true_iff]
    omega
  all_goals
    rename_i hop
    simp [hop, decodeN, decodeK, decodeP, decodeQ, decodeR, legalWhen_eq_error_iff]

/-- The reserved bits of R94, format by format. -/
theorem decode_eq_reserved_iff :
    decode w = .error .reservedBits ↔
      (bits w 31 28 = 2 ∧ bits w 27 8 ≠ 0) ∨
      (bits w 31 28 = 3 ∧ (bits w 27 17 ≠ 0 ∨ bits w 15 13 ≠ 0 ∨ bits w 7 6 ≠ 0)) ∨
      (bits w 31 28 = 4 ∧ (bits w 27 13 ≠ 0 ∨ bits w 7 6 ≠ 0)) ∨
      (bits w 31 28 = 5 ∧ bits w 27 24 ≠ 0) ∨
      (bits w 31 28 ∈ [1, 6, 7, 8, 9] ∧ bits w 27 0 ≠ 0) := by
  unfold decode
  split
  case h_10 =>
    simp only [imp_false] at *
    simp [*]
  all_goals
    rename_i hop
    simp [hop, decodeN, decodeK, decodeP, decodeQ, decodeR, legalWhen_eq_error_iff, imp_iff_not_or, or_assoc]

end

/-! ### The obligations of 30_encoding.md -/

/-- Settles O2. -/
theorem decodeReadsBackEveryCommand : Obligations.DecodeReadsBackEveryCommand := by
  unfold Obligations.DecodeReadsBackEveryCommand
  exact fun _ h => decode_encode h

/-- Settles O3. -/
theorem legalWordsAreEncodings : Obligations.LegalWordsAreEncodings := by
  unfold Obligations.LegalWordsAreEncodings
  exact fun _ _ h => ⟨wellFormed_of_decode h, encode_of_decode h⟩

/-- Settles O4: two rows that a word is of are rows of the one command it decodes to. -/
theorem decodeFollowsMaskAndMatch : Obligations.DecodeFollowsMaskAndMatch := by
  unfold Obligations.DecodeFollowsMaskAndMatch
  refine ⟨fun w r hr => row_hits_iff_decode hr, fun w i _ => row_mem_rows i, fun w r r' hr hr' h h' => ?_⟩
  obtain ⟨i, hi, rfl⟩ := (row_hits_iff_decode hr).1 h
  obtain ⟨i', hi', rfl⟩ := (row_hits_iff_decode hr').1 h'
  cases hi.symm.trans hi'
  rfl

/-- Settles O5. -/
theorem illegalWordsRejectedByName : Obligations.IllegalWordsRejectedByName := by
  unfold Obligations.IllegalWordsRejectedByName
  exact ⟨fun _ => decode_eq_unassigned_iff, fun _ => decode_eq_reserved_iff⟩

/-- Settles O1: closed words, evaluated. -/
theorem specWordsDecode : Obligations.SpecWordsDecode := by
  unfold Obligations.SpecWordsDecode
  decide

end Sys2Proof.Machine
end

section
/-! SUPPORT. Proofs about what SETPX draws (40_display.md, 20_memory.md). First the geometry of the scale transform and
the offsets of a cell; then what painting a cell leaves in the framebuffer; then the SETPX whose writes are accepted,
and the one that is refused; then the obligations. -/

namespace Sys2Proof.Machine

section
variable {s t : State} {p : Inputs} {x y x' y' i j i' j' r n W H : Nat}

/-! ### Two-digit numbers: a cell and a pixel in it -/

theorem digits_lt (hx : x < n) (hi : i < r) : x * r + i < n * r :=
  calc x * r + i < x * r + r := Nat.add_lt_add_left hi _
    _ = (x + 1) * r := (Nat.succ_mul x r).symm
    _ ≤ n * r := Nat.mul_le_mul_right r hx

theorem digits_inj (hi : i < r) (hi' : i' < r) (h : x * r + i = x' * r + i') : x = x' ∧ i = i' := by
  have hdiv : ∀ {z k}, k < r → (z * r + k) / r = z := fun {z k} hk => by
    rw [Nat.mul_comm, Nat.mul_add_div (by omega), Nat.div_eq_of_lt hk, Nat.add_zero]
  have hx : x = x' := by rw [← hdiv (z := x) hi, h, hdiv hi']
  subst hx
  exact ⟨rfl, by omega⟩

/-- The entry of a table written out row by row. -/
theorem flatMap_range_getElem? {α : Type} (f : Nat → Nat → α) {m : Nat} (hj : j < m) (hi : i < n) :
    ((List.range m).flatMap fun j => (List.range n).map (f j))[j * n + i]? = some (f j i) := by
  induction m with
  | zero => omega
  | succ m ih =>
    have hlen : ((List.range m).flatMap fun j => (List.range n).map (f j)).length = m * n := by simp
    rw [List.range_succ, List.flatMap_append]
    obtain hlt | rfl := Nat.lt_succ_iff_lt_or_eq.1 hj
    · rw [List.getElem?_append_left (by rw [hlen]; exact digits_lt hlt hi), ih hlt]
    · rw [List.getElem?_append_right (by omega), hlen]
      simp [hi]

/-! ### The scale transform (R120, R129) -/

theorem scale_canvas (W H : Nat) : 64 * (scale W H).rx ≤ W / 2 ∧ 32 * (scale W H).ry ≤ H / 2 := by
  simp only [scale]
  omega

theorem scale_fits (W H : Nat) :
    (scale W H).xs + 64 * (scale W H).rx ≤ W ∧ (scale W H).ys + 32 * (scale W H).ry ≤ H := by
  simp only [scale]
  omega

theorem scale_margins (W H : Nat) :
    (W - 64 * (scale W H).rx - (scale W H).xs = (scale W H).xs ∨
      W - 64 * (scale W H).rx - (scale W H).xs = (scale W H).xs + 1) ∧
    (H - 32 * (scale W H).ry - (scale W H).ys = (scale W H).ys ∨
      H - 32 * (scale W H).ry - (scale W H).ys = (scale W H).ys + 1) := by
  simp only [scale]
  omega

theorem scale_rx_eq_zero_iff : (scale W H).rx = 0 ↔ W < 128 := by
  simp only [scale]
  omega

theorem scale_ry_eq_zero_iff : (scale W H).ry = 0 ↔ H < 64 := by
  simp only [scale]
  omega

/-- Every pixel of every cell lies on the display. -/
theorem scale_px_lt (hx : x < 64) (hi : i < (scale W H).rx) : (scale W H).px x i < W := by
  have hfits := (scale_fits W H).1
  have hcell := digits_lt hx hi
  simp only [Scale.px]
  omega

theorem scale_py_lt (hy : y < 32) (hj : j < (scale W H).ry) : (scale W H).py y j < H := by
  have hfits := (scale_fits W H).2
  have hcell := digits_lt hy hj
  simp only [Scale.py]
  omega

theorem Scale.px_inj {sc : Scale} (hi : i < sc.rx) (hi' : i' < sc.rx) (h : sc.px x i = sc.px x' i') :
    x = x' ∧ i = i' := by
  simp only [Scale.px] at h
  exact digits_inj hi hi' (by omega)

theorem Scale.py_inj {sc : Scale} (hj : j < sc.ry) (hj' : j' < sc.ry) (h : sc.py y j = sc.py y' j') :
    y = y' ∧ j = j' := by
  simp only [Scale.py] at h
  exact digits_inj hj hj' (by omega)

theorem pixelOffset_inj {stride px py px' py' : Nat} (hx : px < stride) (hx' : px' < stride)
    (h : pixelOffset stride px py = pixelOffset stride px' py') : px = px' ∧ py = py' := by
  simp only [pixelOffset] at h
  exact (digits_inj hx hx' (by omega)).symm

/-! ### The offsets of a cell -/

theorem Scale.mem_cellOffsets {sc : Scale} {stride off : Nat} :
    off ∈ sc.cellOffsets stride x y ↔ ∃ j < sc.ry, ∃ i < sc.rx, sc.offset stride x y i j = off := by
  simp [Scale.cellOffsets]

theorem Scale.length_cellOffsets (sc : Scale) (stride x y : Nat) :
    (sc.cellOffsets stride x y).length = sc.rx * sc.ry := by
  simp [Scale.cellOffsets, Nat.mul_comm]

/-- Rows top to bottom, in a row left to right (R67). -/
theorem Scale.cellOffsets_getElem? {sc : Scale} (stride x y : Nat) (hj : j < sc.ry) (hi : i < sc.rx) :
    (sc.cellOffsets stride x y)[j * sc.rx + i]? = some (sc.offset stride x y i j) :=
  flatMap_range_getElem? (fun j i => sc.offset stride x y i j) hj hi

theorem Scale.offset_mod_four (sc : Scale) (stride x y i j : Nat) : sc.offset stride x y i j % 4 = 0 :=
  Nat.mul_mod_right 4 _

theorem Inputs.cellOffsets_mod_four {off : Nat} (h : off ∈ p.cellOffsets x y) : off % 4 = 0 := by
  obtain ⟨j, -, i, -, rfl⟩ := Scale.mem_cellOffsets.1 h
  exact Scale.offset_mod_four _ _ _ _ _ _

/-- With `STRIDE ≥ W` the offsets stay inside the framebuffer (R69). -/
theorem Inputs.cellOffsets_lt_framebuffer {off : Nat} (hx : x < 64) (hy : y < 32)
    (hs : p.cfgW.toNat ≤ p.cfgStride.toNat) (h : off ∈ p.cellOffsets x y) :
    off + 4 ≤ 4 * p.cfgStride.toNat * p.cfgH.toNat := by
  obtain ⟨j, hj, i, hi, rfl⟩ := Scale.mem_cellOffsets.1 h
  have hpx : p.scale.px x i < p.cfgStride.toNat := Nat.lt_of_lt_of_le (scale_px_lt hx hi) hs
  have hlt := digits_lt (scale_py_lt hy hj) hpx
  rw [Nat.mul_assoc, Nat.mul_comm p.cfgStride.toNat]
  simp only [Scale.offset, pixelOffset]
  exact Nat.mul_le_mul_left 4 hlt

/-- Sampled 16-bit dimensions give offsets that `fb_addr` can name (R62). -/
theorem Inputs.cellOffsets_le {off : Nat} (hx : x < 64) (hy : y < 32) (h : off ∈ p.cellOffsets x y) :
    off + 4 ≤ 2 ^ 34 := by
  obtain ⟨j, hj, i, hi, rfl⟩ := Scale.mem_cellOffsets.1 h
  have hpx : p.scale.px x i < 65536 := (scale_px_lt hx hi).trans p.cfgW.isLt
  have hpy : p.scale.py y j < 65535 := Nat.lt_of_lt_of_le (scale_py_lt hy hj) (Nat.le_of_lt_succ p.cfgH.isLt)
  have hrow : p.scale.py y j * p.cfgStride.toNat ≤ 65534 * 65535 :=
    Nat.mul_le_mul (Nat.le_of_lt_succ hpy) (Nat.le_of_lt_succ p.cfgStride.isLt)
  simp only [Scale.offset, pixelOffset]
  omega

/-! ### What painting leaves -/

/-- Painting at aligned offsets writes exactly the pixels named. -/
theorem Memory.read_paint {w : Word} {offs : List Nat} {a : Nat} (m : Memory) (h : ∀ off ∈ offs, off % 4 = 0) :
    (m.paint w offs).read a = if a - a % 4 ∈ offs then some (byteOf w (a % 4)) else m.read a := by
  induction offs generalizing m with
  | nil => simp
  | cons off rest ih =>
    have hoff := h off (by simp)
    rw [Memory.paint_cons, ih _ fun o ho => h o (by simp [ho]), Memory.read_writeWord]
    by_cases hin : a - a % 4 = off
    · have hk : a - off = a % 4 := by omega
      simp [hin, show off ≤ a ∧ a < off + 4 by omega, hk]
    · simp [hin, show ¬(off ≤ a ∧ a < off + 4) by omega]

theorem Memory.WF.paint {m : Memory} (hm : m.WF) (w : Word) {offs : List Nat}
    (h : ∀ off ∈ offs, off + 3 < fbBytes) : (m.paint w offs).WF := by
  induction offs generalizing m with
  | nil => exact hm
  | cons off rest ih => exact ih (hm.writeWord w (h off (by simp))) fun o ho => h o (by simp [ho])

theorem Inputs.cellOffsets_lt_fbBytes (hx : x < 64) (hy : y < 32) : ∀ off ∈ p.cellOffsets x y, off + 3 < fbBytes :=
  fun _ h => Inputs.cellOffsets_le hx hy h

/-- Painting a cell twice is painting it once (R68). -/
theorem Memory.WF.paint_cell_idem {m : Memory} (hm : m.WF) (w : Word) (hx : x < 64) (hy : y < 32) :
    (m.paint w (p.cellOffsets x y)).paint w (p.cellOffsets x y) = m.paint w (p.cellOffsets x y) := by
  have hlt := Inputs.cellOffsets_lt_fbBytes (p := p) hx hy
  refine ((hm.paint w hlt).paint w hlt).ext (hm.paint w hlt) fun a => ?_
  simp only [Memory.read_paint _ fun _ h => Inputs.cellOffsets_mod_four h]
  split <;> rfl

theorem Grid.setCell_idem (g : Grid) (lit : Bool) (hx : x < 64) (hy : y < 32) :
    (g.setCell x y lit).setCell x y lit = g.setCell x y lit :=
  Grid.ext_cell fun x' _ y' _ => by
    simp only [Grid.cell_setCell _ _ _ _ hx hy]
    split <;> rfl

/-- The blue, green and red bytes of a pixel (R64). -/
theorem byteOf_pixelWord (lit : Bool) {b : Nat} (hb : b < 3) :
    byteOf (pixelWord lit) b = if lit then 0xFF#8 else 0x00#8 := by
  cases lit <;> interval_cases b <;> rfl

/-- Painting a cell gives each of its pixels the colour (R122, R126). -/
theorem Memory.read_paint_cell (m : Memory) (lit : Bool) (hi : i < p.scale.rx) (hj : j < p.scale.ry) {b : Nat}
    (hb : b < 3) :
    (m.paint (pixelWord lit) (p.cellOffsets x y)).read (p.scale.offset p.cfgStride.toNat x y i j + b) =
      some (if lit then 0xFF#8 else 0x00#8) := by
  have hmod := Scale.offset_mod_four p.scale p.cfgStride.toNat x y i j
  have hmem : p.scale.offset p.cfgStride.toNat x y i j ∈ p.cellOffsets x y :=
    Scale.mem_cellOffsets.2 ⟨j, hj, i, hi, rfl⟩
  generalize p.scale.offset p.cfgStride.toNat x y i j = off at hmod hmem ⊢
  have hk : (off + b) % 4 = b := by omega
  rw [Memory.read_paint m fun _ => Inputs.cellOffsets_mod_four, hk, Nat.add_sub_cancel, if_pos hmem,
    byteOf_pixelWord lit hb]

/-- And it leaves every byte outside its pixels. -/
theorem Memory.read_paint_outside (m : Memory) (w : Word) {a : Nat}
    (h : ∀ i < p.scale.rx, ∀ j < p.scale.ry, ¬(p.scale.offset p.cfgStride.toNat x y i j ≤ a ∧
      a < p.scale.offset p.cfgStride.toNat x y i j + 4)) :
    (m.paint w (p.cellOffsets x y)).read a = m.read a := by
  rw [Memory.read_paint m fun _ => Inputs.cellOffsets_mod_four]
  refine if_neg fun hin => ?_
  obtain ⟨j, hj, i, hi, hoff⟩ := Scale.mem_cellOffsets.1 hin
  exact h i hi j hj (by rw [hoff]; omega)

/-! ### SETPX with all its writes accepted -/

theorem State.length_cellOffsets (s : State) (x y : Nat) :
    (s.inputs.cellOffsets x y).length = s.inputs.scale.rx * s.inputs.scale.ry :=
  Scale.length_cellOffsets _ _ _ _

/-- The writes of a pixel loop that completes were all accepted. -/
theorem accepted_of_drawPixels_completed {a : FbAnswers} {w : Word} {offs : List Nat} {k : Nat} {m : Memory}
    (h : (drawPixels a w k offs m).finish = .completed) : ∀ j < offs.length, a.answer (k + j) = .accepted := by
  induction offs generalizing k m with
  | nil => simp
  | cons off rest ih =>
    rw [drawPixels] at h
    split at h
    next => cases h
    next => cases h
    next h0 =>
      intro j hj
      cases j with
      | zero => exact h0
      | succ j =>
        rw [Nat.add_comm j, ← Nat.add_assoc]
        exact ih h j (by simpa using hj)

theorem State.fresh_draw_eq {lit : Bool} {d : Drawn} (h : s.fresh.pixelLoop x y lit = d) :
    s.fresh.draw x y lit = { s with grid := s.grid.setCell x y lit, fb := d.fb, activity := d.activity } := by
  rw [← h]
  rfl

/-- The state that a SETPX leaves when all its writes are accepted (R122). -/
theorem exec_setpx_drawn (lit : Bool) (hx : x < 64) (hy : y < 32) (ha : s.Accepting)
    (hk : ∀ k < s.inputs.scale.rx * s.inputs.scale.ry, s.inputs.fb.answer k = .accepted) :
    exec (.setpx x y lit) s = .next
      { s with
        grid := s.grid.setCell x y lit
        fb := s.fb.paint (pixelWord lit) (s.inputs.cellOffsets x y)
        resp := some { status := .ok, data := 0 }
        activity := (s.inputs.cellOffsets x y).map (.fbWrite · (pixelWord lit)) } := by
  have hloop : s.fresh.pixelLoop x y lit =
      { fb := s.fb.paint (pixelWord lit) (s.inputs.cellOffsets x y)
        activity := (s.inputs.cellOffsets x y).map (.fbWrite · (pixelWord lit)), finish := .completed } :=
    drawPixels_accepted _ _ _ _ _ fun k hlt => by
      rw [Nat.zero_add]
      exact hk k (s.length_cellOffsets x y ▸ hlt)
  have hran : Ran s.fresh (.setpx x y lit) ((s.fresh.draw x y lit).respond .ok 0) := .setpxDrawn (by rw [hloop])
  rw [(exec_accepting_iff (wellFormed_setpx.2 ⟨hx, hy⟩) ha).2 hran,
    State.respond_of_ready (s := s.fresh.draw x y lit) ha.1, State.fresh_draw_eq hloop]

/-- A SETPX that ends without a fatal fault had all its writes accepted. -/
theorem accepted_of_exec_setpx {lit : Bool} (ha : s.Accepting) (h : exec (.setpx x y lit) s = .next t)
    (hf : t.fatal = false) :
    x < 64 ∧ y < 32 ∧ ∀ k < s.inputs.scale.rx * s.inputs.scale.ry, s.inputs.fb.answer k = .accepted := by
  obtain ⟨hi, ⟨hh, -⟩ | ⟨-, hran⟩⟩ := exec_next h
  · exact absurd hh (by simp [ha.not_halted])
  · obtain ⟨hx, hy⟩ := wellFormed_setpx.1 hi
    refine ⟨hx, hy, fun k hk => ?_⟩
    cases hran with
    | setpxDrawn hd =>
      have := accepted_of_drawPixels_completed hd k (by rw [← s.length_cellOffsets x y] at hk; exact hk)
      rwa [Nat.zero_add] at this
    | setpxRefused hd => cases hf

/-! ### SETPX with a write refused -/

theorem FbAnswers.refusedAt_answer_lt {k l : Nat} (left : Word) (h : l < k) :
    (FbAnswers.refusedAt k left).answer l = .accepted :=
  if_neg h.ne

/-- The state that a SETPX leaves when its write `k` is the refused one (R242, R245). -/
theorem exec_setpx_refused (lit : Bool) {k : Nat} {left : Word} (hx : x < 64) (hy : y < 32) (ha : s.Accepting)
    (hk : k < (s.inputs.cellOffsets x y).length) (hfb : s.inputs.fb = .refusedAt k left) :
    exec (.setpx x y lit) s = .next
      { s with
        grid := s.grid.setCell x y lit
        fb := (s.fb.paint (pixelWord lit) ((s.inputs.cellOffsets x y).take k)).writeWord
          (s.inputs.cellOffsets x y)[k] left
        fsm := .halt, fatal := true, fcause := FatalCause.fbFail.code
        resp := some { status := .fatal, data := FatalCause.fbFail.code.setWidth 64 }
        activity := ((s.inputs.cellOffsets x y).take k).map (.fbWrite · (pixelWord lit))
          ++ [.fbRefused (s.inputs.cellOffsets x y)[k] (pixelWord lit)] } := by
  have hloop := (drawPixels_stopped s.inputs.fb (pixelWord lit) (s.inputs.cellOffsets x y) 0 s.fb k hk
    fun l hl => by rw [hfb, Nat.zero_add]; exact FbAnswers.refusedAt_answer_lt left hl).1 left
    (by rw [hfb, Nat.zero_add]; exact if_pos rfl)
  change s.fresh.pixelLoop x y lit = _ at hloop
  have hran : Ran s.fresh (.setpx x y lit) ((s.fresh.draw x y lit).raiseFatal .fbFail) :=
    .setpxRefused (by rw [hloop])
  rw [(exec_accepting_iff (wellFormed_setpx.2 ⟨hx, hy⟩) ha).2 hran,
    State.raiseFatal_of_not_fatal (s := s.fresh.draw x y lit) ha.2, State.fresh_draw_eq hloop]

end

/-! ### The obligations of 40_display.md on SETPX -/

/-- Settles O25. -/
theorem scaleGeometry : Obligations.ScaleGeometry := by
  unfold Obligations.ScaleGeometry
  refine fun W H => ⟨scale_canvas W H, scale_fits W H, fun x hx y hy i hi j hj => ?_, scale_margins W H,
    fun stride px py px' py' hs hx hx' h => pixelOffset_inj (by omega) (by omega) h⟩
  refine ⟨Nat.le_pred_of_lt (scale_px_lt hx hi), Nat.le_pred_of_lt (scale_py_lt hy hj),
    fun x' _ y' _ i' hi' j' hj' hpx hpy => ?_⟩
  obtain ⟨hx, hi⟩ := Scale.px_inj hi hi' hpx
  obtain ⟨hy, hj⟩ := Scale.py_inj hj hj' hpy
  exact ⟨hx, hy, hi, hj⟩

/-- Settles O26. -/
theorem pixelOffsetsFitThePort : Obligations.PixelOffsetsFitThePort := by
  unfold Obligations.PixelOffsetsFitThePort
  exact fun _ x y hx hy off h => ⟨Inputs.cellOffsets_mod_four h, Inputs.cellOffsets_le hx hy h⟩

/-- Settles O27. -/
theorem pixelOffsetsStayInTheFramebuffer : Obligations.PixelOffsetsStayInTheFramebuffer := by
  unfold Obligations.PixelOffsetsStayInTheFramebuffer
  exact fun _ x y hx hy hs off h => Inputs.cellOffsets_lt_framebuffer hx hy hs h

/-- Settles O17: the writes are the offsets of the cell in their order. -/
theorem setpxWritesRowByRow : Obligations.SetpxWritesRowByRow := by
  unfold Obligations.SetpxWritesRowByRow
  intro x y lit s hx hy ha hk
  refine ⟨exec_setpx_drawn lit hx hy ha hk, s.length_cellOffsets x y, fun j hj i hi => ?_⟩
  exact Scale.cellOffsets_getElem? _ x y hj hi

/-- Settles O16: a byte of the framebuffer is painted exactly if it belongs to a pixel of the cell. -/
theorem setpxDrawsTheCell : Obligations.SetpxDrawsTheCell := by
  unfold Obligations.SetpxDrawsTheCell
  refine ⟨fun x y lit hx hy => ?_, fun x y lit s hx hy ha hk => ?_⟩
  · rw [toNat_encode (wellFormed_setpx.2 ⟨hx, hy⟩)]
    simp only [Instr.opcode, Instr.operandBits]
    omega
  · exact ⟨_, exec_setpx_drawn lit hx hy ha hk, rfl, fun x' y' => Grid.cell_setCell _ _ _ _ hx hy,
      fun i hi j hj b hb => Memory.read_paint_cell s.fb lit hi hj hb,
      fun a hout => Memory.read_paint_outside s.fb _ hout, rfl⟩

/-- Settles O18: a cell of no pixels has no offsets, so no answer to a write is asked for. -/
theorem zeroScaleDrawsNothing : Obligations.ZeroScaleDrawsNothing := by
  unfold Obligations.ZeroScaleDrawsNothing
  refine ⟨fun W H => ⟨scale_rx_eq_zero_iff, scale_ry_eq_zero_iff⟩, fun x y lit s hx hy ha hz => ?_⟩
  have hnone : s.inputs.scale.rx * s.inputs.scale.ry = 0 :=
    Nat.mul_eq_zero.2 (hz.imp scale_rx_eq_zero_iff.2 scale_ry_eq_zero_iff.2)
  have hoffs : s.inputs.cellOffsets x y = [] := List.eq_nil_of_length_eq_zero ((s.length_cellOffsets x y).trans hnone)
  rw [exec_setpx_drawn lit hx hy ha (by simp [hnone]), hoffs]
  rfl

/-- Settles O19. -/
theorem refusedPixelWriteIsFatal : Obligations.RefusedPixelWriteIsFatal := by
  unfold Obligations.RefusedPixelWriteIsFatal
  intro x y lit s k left hx hy ha hk hfb
  rw [← s.length_cellOffsets x y] at hk
  exact ⟨_, List.getElem?_eq_getElem hk, exec_setpx_refused lit hx hy ha hk hfb⟩

/-- Settles O20: painting a cell and setting its bit are both idempotent. -/
theorem setpxTwiceIsOnce : Obligations.SetpxTwiceIsOnce := by
  unfold Obligations.SetpxTwiceIsOnce
  intro x y lit s t ha hm h hf
  obtain ⟨hx, hy, hk⟩ := accepted_of_exec_setpx ha h hf
  cases h.symm.trans (exec_setpx_drawn lit hx hy ha hk)
  refine ⟨_, exec_setpx_drawn lit hx hy ha hk, ?_⟩
  simp only [Grid.setCell_idem _ _ hx hy, hm.paint_cell_idem _ hx hy]

/-- Settles O21. -/
theorem getpxReadsTheLatestSetpx : Obligations.GetpxReadsTheLatestSetpx := by
  unfold Obligations.GetpxReadsTheLatestSetpx
  intro x y x' y' lit s t hx' hy' ha h hf
  obtain ⟨hx, hy, hk⟩ := accepted_of_exec_setpx ha h hf
  cases h.symm.trans (exec_setpx_drawn lit hx hy ha hk)
  refine ⟨_, exec_getpx_accepting hx' hy' ha, ?_⟩
  simp only [Grid.cell_setCell _ _ _ _ hx hy, boolData]
  split <;> rfl

end Sys2Proof.Machine
end

section
/-! SUPPORT. Proofs about the whole machine (10_state.md, 60_exceptions.md, 70_reset_and_hazards.md). First the
invariant of the command boundary and that every command keeps it; then the commands that never complete because
PLATFORM is silent; then what each command leaves as it was, and what a run leaves in GRID; then the obligations. -/

namespace Sys2Proof.Machine

section
variable {i : Instr} {s t u : State} {x y : Nat} {w : Word} {ports : Inputs} {rest : List Event} {f : Fault}

/-! ### The invariant inside a command -/

/-- What holds while a command of a live block runs: no fatal fault yet, the framebuffer canonical, the transient
counters idle. -/
structure State.Running (s : State) : Prop where
  fbCanonical : s.fb.WF
  notFatal : s.fatal = false
  noCause : s.fcause = 0
  transientsIdle : s.stallCnt = 0 ∧ s.ri = 0 ∧ s.rj = 0

theorem State.Inv.running (h : s.Inv) (ha : s.Accepting) : s.fresh.Running where
  fbCanonical := h.fbCanonical
  notFatal := ha.2
  noCause := not_not.1 fun hc => by simpa [ha.2] using h.causeIffFatal.1 hc
  transientsIdle := h.transientsIdle

/-- At a command boundary with no fatal fault the invariant holds. -/
theorem State.Running.inv (h : s.Running) (hready : s.fsm = .ready)
    (hresp : ∀ r, s.resp = some r → r.status ≠ .fatal) : s.Inv where
  fbCanonical := h.fbCanonical
  boundary := .inl hready
  fatalIffHalt := by simp [h.notFatal, hready]
  causeIffFatal := by simp [h.notFatal, h.noCause]
  cycleNeverFails _ := by rw [h.noCause]; decide
  transientsIdle := h.transientsIdle
  deadAnswer hf := by simp [h.notFatal] at hf
  liveAnswer _ := hresp

theorem State.Running.respond_inv (h : s.Running) {st : Status} (hst : st ≠ .fatal) (d : Word64) :
    (s.respond st d).Inv :=
  State.Running.inv (s := s.respond st d) ⟨h.fbCanonical, h.notFatal, h.noCause, h.transientsIdle⟩ rfl
    fun r hr => by cases hr; exact hst

theorem State.Running.finishStep_inv (h : s.Running) : s.finishStep.Inv := by
  obtain ⟨-, hri, hrj⟩ := h.transientsIdle
  have hs : s.stall.Running := ⟨h.fbCanonical, h.notFatal, h.noCause, rfl, hri, hrj⟩
  exact hs.respond_inv (by decide) 0

theorem FatalCause.code_ne_zero (c : FatalCause) : c.code ≠ 0 := by cases c <;> decide

theorem FatalCause.code_ne_of_ne {c d : FatalCause} (h : c ≠ d) : c.code ≠ d.code := by
  revert h
  cases c <;> cases d <;> decide

/-- A fatal fault keeps the invariant; in CYCLE mode it must not be CLK_FAIL (R179). -/
theorem State.Running.raiseFatal_inv (h : s.Running) {cause : FatalCause}
    (hmode : s.config.clockMode = .cycle → cause ≠ .clkFail) : (s.raiseFatal cause).Inv := by
  rw [State.raiseFatal_of_not_fatal h.notFatal]
  exact
    { fbCanonical := h.fbCanonical
      boundary := .inr rfl
      fatalIffHalt := by simp
      causeIffFatal := iff_of_true cause.code_ne_zero rfl
      cycleNeverFails := fun hc => FatalCause.code_ne_of_ne (hmode hc)
      transientsIdle := h.transientsIdle
      deadAnswer := fun _ => rfl
      liveAnswer := fun hf => by cases hf }

theorem State.Running.note (h : s.Running) (a : PortAction) : (s.note a).Running :=
  ⟨h.fbCanonical, h.notFatal, h.noCause, h.transientsIdle⟩

theorem State.Running.noteClock (h : s.Running) : s.noteClock.Running := h.note _

theorem State.Running.keyPress (h : s.Running) (code : BitVec 16) (v : Word64) : (s.keyPress code v).Running :=
  ⟨h.fbCanonical, h.notFatal, h.noCause, h.transientsIdle⟩

theorem State.Running.keyTimeout (h : s.Running) (v : Word64) : (s.keyTimeout v).Running := by
  obtain ⟨hfb, hf, hc, ht⟩ := h
  constructor <;> simpa

theorem State.Running.draw (h : s.Running) (lit : Bool) (hx : x < 64) (hy : y < 32) : (s.draw x y lit).Running where
  fbCanonical := drawPixels_wf _ _ _ _ h.fbCanonical (Inputs.cellOffsets_lt_fbBytes hx hy)
  notFatal := h.notFatal
  noCause := h.noCause
  transientsIdle := h.transientsIdle

/-- A clock read fails in CALENDAR mode only. -/
theorem State.not_cycle_of_clock_failed (hc : s.clock = .failed) : s.config.clockMode ≠ .cycle := by
  simp [(State.clock_eq_failed_iff.1 hc).1]

/-- A command that runs in a live block ends at a command boundary that meets the invariant. -/
theorem Ran.inv (h : Ran s i t) (hi : i.wellFormed = true) (hs : s.Running) : t.Inv := by
  have hp := hs.note .keyPoll
  cases h with
  | rand =>
    have hd : ({ s with entropy := s.entropy + 1 } : State).Running :=
      ⟨hs.fbCanonical, hs.notFatal, hs.noCause, hs.transientsIdle⟩
    exact hd.respond_inv (by decide) _
  | keyp => exact hs.respond_inv (by decide) _
  | setpxDrawn =>
    obtain ⟨hx, hy⟩ := wellFormed_setpx.1 hi
    exact (hs.draw _ hx hy).respond_inv (by decide) _
  | setpxRefused =>
    obtain ⟨hx, hy⟩ := wellFormed_setpx.1 hi
    exact (hs.draw _ hx hy).raiseFatal_inv fun _ => by decide
  | getpx => exact hs.respond_inv (by decide) _
  | setres w h =>
    have hd : ({ s with lresW := BitVec.ofNat 12 w, lresH := BitVec.ofNat 12 h } : State).Running :=
      ⟨hs.fbCanonical, hs.notFatal, hs.noCause, hs.transientsIdle⟩
    exact hd.respond_inv (by decide) _
  | getres => exact hs.respond_inv (by decide) _
  | ticks => exact hs.noteClock.respond_inv (by decide) _
  | ticksFailed hc => exact hs.noteClock.raiseFatal_inv fun hm => absurd hm (State.not_cycle_of_clock_failed hc)
  | beep => exact hs.respond_inv (by decide) _
  | stepFailed => exact hp.raiseFatal_inv fun _ => by decide
  | stepExit => exact hp.respond_inv (by decide) _
  | stepPress => exact (hp.noteClock.keyPress _ _).finishStep_inv
  | stepPressFailed _ hc =>
    exact hp.noteClock.raiseFatal_inv fun hm => absurd hm (State.not_cycle_of_clock_failed hc)
  | stepTimeout => exact (hp.noteClock.keyTimeout _).finishStep_inv
  | stepTimeoutFailed _ _ hc =>
    exact hp.noteClock.raiseFatal_inv fun hm => absurd hm (State.not_cycle_of_clock_failed hc)
  | stepIdle => exact hp.finishStep_inv

/-! ### The invariant at a step -/

theorem State.powerOn_running (c : Config) (p : Inputs) : (State.powerOn c p).Running :=
  ⟨⟨.nil, fun _ hc => by cases hc⟩, rfl, rfl, rfl, rfl, rfl⟩

theorem State.powerOn_inv (c : Config) (p : Inputs) : (State.powerOn c p).Inv :=
  (State.powerOn_running c p).inv rfl fun _ hr => by cases hr

/-- `rst` leaves the framebuffer alone (R282). -/
theorem State.Inv.of_rst (h : s.Inv) : s.rst.Inv :=
  State.Running.inv ⟨h.fbCanonical, rfl, rfl, rfl, rfl, rfl⟩ rfl fun _ hr => by cases hr

theorem State.Inv.dead_of_halted (h : s.Inv) (hh : s.halted = true) : s.Dead :=
  h.accepting_or_dead.resolve_left fun ha => by simp [ha.not_halted] at hh

theorem State.Inv.answerFatal (h : s.Inv) (hd : s.Dead) : s.fresh.answerFatal.Inv where
  fbCanonical := h.fbCanonical
  boundary := h.boundary
  fatalIffHalt := h.fatalIffHalt
  causeIffFatal := h.causeIffFatal
  cycleNeverFails := h.cycleNeverFails
  transientsIdle := h.transientsIdle
  deadAnswer _ := rfl
  liveAnswer hf := by
    have : s.fatal = false := hf
    simp [hd.2] at this

theorem State.Inv.of_exec (h : s.Inv) (he : exec i s = .next t) : t.Inv := by
  obtain ⟨hi, ⟨hh, rfl⟩ | ⟨ha, hr⟩⟩ := exec_next he
  · exact h.answerFatal (h.dead_of_halted hh)
  · exact hr.inv hi (h.running ha)

theorem State.Inv.of_step (h : s.Inv) (hs : step s = .next t) : t.Inv := by
  obtain ⟨-, rfl⟩ | ⟨rest, -, rfl⟩ | ⟨w, p, rest, -, ⟨i, -, hx⟩ | ⟨e, -, hx⟩⟩ := step_next hs
  · exact h
  · exact (h.present _ _).of_rst
  · exact (h.present _ _).of_exec hx
  · obtain ⟨hh, rfl⟩ | ⟨ha, rfl⟩ := execIllegal_next hx
    · exact (h.present p rest).answerFatal ((h.present p rest).dead_of_halted hh)
    · exact ((h.present p rest).running ha).respond_inv (by decide) 0

/-! ### Commands that never complete (U20, R294) -/

/-- `Waits s i f`: the accepted command `i`, run in `s`, makes a request that PLATFORM never acknowledges, and stops
with the fault `f`. One constructor for each request. -/
inductive Waits (s : State) : Instr → Fault → Prop
  | setpx {x y : Nat} {lit : Bool} (drawn : (s.pixelLoop x y lit).finish = .silent) :
      Waits s (.setpx x y lit) .framebufferSilent
  | ticks (clock : s.clock = .silent) : Waits s .ticks .calendarSilent
  | stepPoll (poll : s.poll = .silent) : Waits s .step .keyPollSilent
  | stepPress {code : BitVec 16} (poll : s.poll = .value (.printable code)) (clock : s.clock = .silent) :
      Waits s .step .calendarSilent
  | stepTimeout (poll : s.poll = .value .other) (held : s.keyHeld = true) (clock : s.clock = .silent) :
      Waits s .step .calendarSilent

theorem withTime_silent {body : Word64 → State → Host.Outcome State Fault Refusal} (h : s.clock = .silent) :
    withTime s body = .fault .calendarSilent := by
  unfold withTime
  rw [show sampleClock s.config.clockMode s.inputs.cyc s.inputs.cal = .silent from h]

theorem exec_of_waits (hi : i.wellFormed = true) (ha : s.Accepting) (h : Waits s.fresh i f) : exec i s = .fault f := by
  cases h with
  | setpx hd => rw [exec_setpx_accepting _ hi ha, hd]
  | ticks hc =>
    rw [exec, execTicks, runCommand_accepting _ hi ha]
    exact withTime_silent hc
  | stepPoll hp => rw [exec_step_accepting ha, hp]
  | stepPress hp hc => rw [exec_step_accepting ha, hp]; exact withTime_silent hc
  | stepTimeout hp hk hc => rw [exec_step_accepting ha, hp]; exact (if_pos hk).trans (withTime_silent hc)

/-- A command completes or waits for ever; there is no third way. -/
theorem ran_or_waits (s : State) (i : Instr) : (∃ t, Ran s i t) ∨ ∃ f, Waits s i f := by
  cases i with
  | rand => exact .inl ⟨_, .rand⟩
  | keyp idx => exact .inl ⟨_, .keyp idx⟩
  | setpx x y lit =>
    cases hd : (s.pixelLoop x y lit).finish with
    | completed => exact .inl ⟨_, .setpxDrawn hd⟩
    | refused => exact .inl ⟨_, .setpxRefused hd⟩
    | silent => exact .inr ⟨_, .setpx hd⟩
  | getpx x y => exact .inl ⟨_, .getpx x y⟩
  | setres w h => exact .inl ⟨_, .setres w h⟩
  | getres => exact .inl ⟨_, .getres⟩
  | ticks =>
    cases hc : s.clock with
    | value v => exact .inl ⟨_, .ticks hc⟩
    | failed => exact .inl ⟨_, .ticksFailed hc⟩
    | silent => exact .inr ⟨_, .ticks hc⟩
  | beep => exact .inl ⟨_, .beep⟩
  | step =>
    cases hp : s.poll with
    | silent => exact .inr ⟨_, .stepPoll hp⟩
    | failed => exact .inl ⟨_, .stepFailed hp⟩
    | value ev =>
      cases ev with
      | exit => exact .inl ⟨_, .stepExit hp⟩
      | printable code =>
        cases hc : s.clock with
        | value v => exact .inl ⟨_, .stepPress hp hc⟩
        | failed => exact .inl ⟨_, .stepPressFailed hp hc⟩
        | silent => exact .inr ⟨_, .stepPress hp hc⟩
      | other =>
        cases hk : s.keyHeld with
        | false => exact .inl ⟨_, .stepIdle hp hk⟩
        | true =>
          cases hc : s.clock with
          | value v => exact .inl ⟨_, .stepTimeout hp hk hc⟩
          | failed => exact .inl ⟨_, .stepTimeoutFailed hp hk hc⟩
          | silent => exact .inr ⟨_, .stepTimeout hp hk hc⟩

theorem State.poll_eq_silent_iff : s.poll = .silent ↔ s.inputs.key = none := by
  unfold State.poll
  cases s.inputs.key with
  | none => simp [pollKey]
  | some k => cases he : k.err <;> simp [pollKey, he]

theorem State.clock_eq_silent_iff : s.clock = .silent ↔ s.config.clockMode = .calendar ∧ s.inputs.cal = none := by
  unfold State.clock
  cases s.config.clockMode with
  | cycle => simp [sampleClock_cycle]
  | calendar =>
    cases s.inputs.cal with
    | none => simp [sampleClock]
    | some c => cases he : c.err <;> simp [sampleClock, he]

theorem exists_silent_of_drawPixels {a : FbAnswers} {offs : List Nat} {k : Nat} {m : Memory}
    (h : (drawPixels a w k offs m).finish = .silent) : ∃ k, a.answer k = .silent := by
  induction offs generalizing k m with
  | nil => cases h
  | cons off rest ih =>
    rw [drawPixels] at h
    split at h
    next => cases h
    next hk => exact ⟨k, hk⟩
    next => exact ih h

/-- A PLATFORM that acknowledges everything keeps no command waiting. -/
theorem Waits.not_answering (h : Waits s i f) : ¬ s.inputs.Answering s.config.clockMode := by
  rintro ⟨hkey, hcal, hfb⟩
  have hclock : s.clock ≠ .silent := fun hc => by
    obtain ⟨hm, hn⟩ := State.clock_eq_silent_iff.1 hc
    exact hcal hm hn
  cases h with
  | setpx hd =>
    obtain ⟨k, hk⟩ := exists_silent_of_drawPixels hd
    exact hfb k hk
  | ticks hc => exact hclock hc
  | stepPoll hp => exact hkey (State.poll_eq_silent_iff.1 hp)
  | stepPress _ hc => exact hclock hc
  | stepTimeout _ _ hc => exact hclock hc

theorem Waits.ne_notReady (h : Waits s i f) : f ≠ .notReady := by cases h <;> exact Fault.noConfusion

theorem execIllegal_accepting (ha : s.Accepting) : execIllegal s = .next (s.fresh.respond .illegal 0) := by
  simp [execIllegal, ha.not_halted, ha.1]

theorem step_of_illegal {e : Illegal} (he : s.events = .command w ports :: rest) (hd : decode w = .error e) :
    step s = execIllegal (s.present ports rest) := by
  simp only [step, he, acceptWord, hd]

/-- From a legal state a step completes, or runs a command that waits for ever. -/
theorem State.Inv.step_completes_or_waits (h : s.Inv) :
    (∃ t, step s = .next t) ∨
      ∃ w ports rest i f, s.events = .command w ports :: rest ∧ Waits (s.present ports rest).fresh i f ∧
        step s = .fault f := by
  cases he : s.events with
  | nil => exact .inl ⟨s, by simp only [step, he]⟩
  | cons e rest =>
    cases e with
    | reset => exact .inl ⟨_, step_of_reset he⟩
    | command w ports =>
      obtain ha | hd := h.accepting_or_dead
      · have hp := ha.present ports rest
        cases hw : decode w with
        | error e => exact .inl ⟨_, (step_of_illegal he hw).trans (execIllegal_accepting hp)⟩
        | ok i =>
          have hi := wellFormed_of_decode hw
          obtain ⟨t, hr⟩ | ⟨f, hf⟩ := ran_or_waits (s.present ports rest).fresh i
          · exact .inl ⟨t, (step_of_decode he hw).trans ((exec_accepting_iff hi hp).2 hr)⟩
          · exact .inr ⟨w, ports, rest, i, f, rfl, hf, (step_of_decode he hw).trans (exec_of_waits hi hp hf)⟩
      · exact .inl ⟨_, hd.step_command he⟩

/-! ### What a command leaves as it was -/

/-- Only SETPX writes the framebuffer (R60). -/
theorem Ran.fb_eq (h : Ran s i t) (hne : ∀ x y lit, i ≠ .setpx x y lit) : t.fb = s.fb := by
  cases h with
  | setpxDrawn | setpxRefused => exact absurd rfl (hne _ _ _)
  | stepTimeout => simp [State.noteClock]
  | _ => rfl

/-- And it writes the pixels of its cell only, completed or refused. -/
theorem Ran.setpx_read {lit : Bool} {a : Nat} (h : Ran s (.setpx x y lit) t)
    (hout : ∀ off ∈ s.inputs.cellOffsets x y, ¬(off ≤ a ∧ a < off + 4)) : t.fb.read a = s.fb.read a := by
  cases h <;> exact drawPixels_read_other _ _ _ _ _ _ hout

/-- Only STEP writes STALL_CNT; it leaves it 0 where it stalled, which is where it answers OK with 0 (R215). -/
theorem Ran.stallCnt_eq (h : Ran s i t) :
    t.stallCnt = if i = .step ∧ t.resp = some { status := .ok, data := 0 } then 0 else s.stallCnt := by
  cases h <;> simp [State.noteClock, State.draw]

/-- Only RAND writes ENTROPY (R200). -/
theorem Ran.entropy_eq (h : Ran s i t) (hne : i ≠ .rand) : t.entropy = s.entropy := by
  cases h with
  | rand => exact absurd rfl hne
  | _ => simp [State.noteClock, State.draw]

/-- Only a fatal fault of SETPX, TICKS or STEP writes FATAL and FCAUSE (R241). -/
theorem Ran.fatal_eq (h : Ran s i t) (hsetpx : ∀ x y lit, i ≠ .setpx x y lit) (hticks : i ≠ .ticks)
    (hstep : i ≠ .step) : t.fsm = .ready ∧ t.fatal = s.fatal ∧ t.fcause = s.fcause := by
  cases h <;> simp at hsetpx hticks hstep ⊢

theorem Ran.counters_and_inputs_eq (h : Ran s i t) : t.ri = s.ri ∧ t.rj = s.rj ∧ t.inputs = s.inputs := by
  cases h <;> simp [State.noteClock, State.draw]

/-- STEP alone writes the key record (R153, R154). -/
theorem Ran.keyRecord_eq_of_ne (h : Ran s i t) (hne : i ≠ .step) : t.keyRecord = s.keyRecord :=
  h.keyRecord_eq fun hi => absurd hi hne

/-! ### What a run leaves in GRID -/

/-- The cell (x, y), which held `b`, after the event. -/
def latestWrite (x y : Nat) (b : Bool) : Event → Bool
  | .command w _ =>
    match decode w with
    | .ok (.setpx x' y' lit) => if x' = x ∧ y' = y then lit else b
    | _ => b
  | .reset => b

/-- A command leaves in each cell what the event of its word is said to (R72). -/
theorem Ran.cell_eq_latestWrite (h : Ran s i t) (hw : decode w = .ok i) :
    t.grid.cell x y = latestWrite x y (s.grid.cell x y) (.command w ports) := by
  rw [h.grid_eq]
  simp only [latestWrite, hw]
  cases i with
  | setpx x' y' lit =>
    obtain ⟨hx, hy⟩ := wellFormed_setpx.1 (wellFormed_of_decode hw)
    simp only [Grid.cell_setCell _ _ _ _ hx hy, eq_comm]
  | _ => rfl

/-- A step of a legal state that leaves it live leaves in each cell what its event is said to. -/
theorem State.Inv.cell_after_step (h : s.Inv) (hs : step s = .next t) (hf : t.fatal = false)
    (hno : Event.reset ∉ s.events.take 1) :
    t.grid.cell x y = (s.events.take 1).foldl (latestWrite x y) (s.grid.cell x y) := by
  obtain ⟨he, rfl⟩ | ⟨rest, he, rfl⟩ | ⟨w, p, rest, he, ⟨i, hd, hx⟩ | ⟨e, hd, hx⟩⟩ := step_next hs
  · simp [he]
  · simp [he] at hno
  · obtain ⟨-, ⟨hh, rfl⟩ | ⟨-, hr⟩⟩ := exec_next hx
    · have : s.fatal = false := hf
      simp [(h.dead_of_halted hh).2] at this
    · rw [he]
      exact hr.cell_eq_latestWrite (ports := p) hd
  · have hcell : t.grid = s.grid := by
      obtain ⟨-, rfl⟩ | ⟨-, rfl⟩ := execIllegal_next hx <;> rfl
    simp [he, latestWrite, hd, hcell]

/-- The same over a run. -/
theorem State.Inv.cell_after_run {n : Nat} (h : s.Inv) (hs : runSteps n s = .next t) (hf : t.fatal = false)
    (hno : Event.reset ∉ s.events.take n) :
    t.grid.cell x y = (s.events.take n).foldl (latestWrite x y) (s.grid.cell x y) := by
  induction n generalizing s with
  | zero => cases hs; simp
  | succ n ih =>
    obtain ⟨u, hu, hrun⟩ := runSteps_next hs
    have hsplit : s.events.take (n + 1) = s.events.take 1 ++ u.events.take n := by
      rw [step_events hu, ← List.drop_one, Nat.add_comm, List.take_add]
    rw [hsplit, List.mem_append, not_or] at hno
    have hlive : u.fatal = false := by
      by_contra hdead
      have := keptExcept_faulted.runSteps (F := fun _ => False) (by simpa using hdead)
        (fun e he => Event.avoids_nothing (by rintro rfl; exact hno.2 he)) hrun
      simp [this] at hf
    rw [hsplit, List.foldl_append, ← h.cell_after_step hu hlive hno.1]
    exact ih (h.of_step hu) hrun hno.2

end

/-! ### The obligations on steps, reset and the invariant -/

/-- Settles O12. -/
theorem stepKeepsInvariant : Obligations.StepKeepsInvariant := by
  unfold Obligations.StepKeepsInvariant
  exact fun _ _ h hs => h.of_step hs

/-- Settles O11. -/
theorem resetMeetsInvariant : Obligations.ResetMeetsInvariant := by
  unfold Obligations.ResetMeetsInvariant
  exact ⟨State.powerOn_inv, State.powerOn_inv _ _⟩

/-- Settles O13: a command that waits does so for a request of its own, which an answering PLATFORM acknowledges. -/
theorem legalStepsComplete : Obligations.LegalStepsComplete := by
  unfold Obligations.LegalStepsComplete
  refine ⟨fun s h hans => ?_, fun s h => ?_⟩
  · obtain ht | ⟨w, ports, rest, i, f, he, hw, -⟩ := h.step_completes_or_waits
    · exact ht
    · exact absurd (hans w ports rest he) hw.not_answering
  · obtain ⟨t, ht⟩ | ⟨w, ports, rest, i, f, -, hw, hf⟩ := h.step_completes_or_waits
    · simp [ht]
    · simp [hf, hw.ne_notReady]

/-- Settles O14: a dead block only answers, and a live one runs the command as `Ran` says. -/
theorem stateWrittenOnlyByItsCommands : Obligations.StateWrittenOnlyByItsCommands := by
  unfold Obligations.StateWrittenOnlyByItsCommands
  intro i s t h
  obtain ⟨hi, ⟨-, rfl⟩ | ⟨ha, hr⟩⟩ := exec_next h
  · simp
  · obtain ⟨hri, hrj, hinputs⟩ := hr.counters_and_inputs_eq
    refine ⟨fun hne => ?_, ?_, hr.lres_eq, fun hne => ?_, ?_, hr.entropy_eq, fun h1 h2 h3 => ?_,
      hri, hrj, hr.config_eq, hinputs, hr.events_eq⟩
    · have hfb := hr.fb_eq hne
      refine ⟨?_, hfb, fun a => by rw [hfb]; rfl⟩
      rw [hr.grid_eq]
      cases i with
      | setpx x y lit => exact absurd rfl (hne x y lit)
      | _ => rfl
    · rintro x y lit rfl
      refine ⟨fun x' y' hother => hr.cell_eq hi fun _ he => hother ?_, fun a hout => hr.setpx_read hout⟩
      cases he
      exact ⟨rfl, rfl⟩
    · obtain ⟨hheld, hchar, htime⟩ := State.keyRecord_eq_iff.1 (hr.keyRecord_eq_of_ne hne)
      exact ⟨hheld, hchar, htime, hr.stallCnt_eq.trans (if_neg fun hstep => hne hstep.1)⟩
    · rintro rfl
      simpa using hr.stallCnt_eq
    · obtain ⟨hready, hfatal, hcause⟩ := hr.fatal_eq h1 h2 h3
      exact ⟨hready.trans ha.1.symm, hfatal, hcause⟩

/-- Settles O15. -/
theorem gridHoldsTheLatestWrites : Obligations.GridHoldsTheLatestWrites := by
  unfold Obligations.GridHoldsTheLatestWrites
  exact fun n s t x y _ _ h hs hf hno => h.cell_after_run hs hf hno

/-- Settles O6. -/
theorem stepRunsTheDecodedCommand : Obligations.StepRunsTheDecodedCommand := by
  unfold Obligations.StepRunsTheDecodedCommand
  refine ⟨fun s w ports rest i he hd => ⟨wellFormed_of_decode hd, step_of_decode he hd⟩, fun s he => ?_⟩
  simp only [step, he]

/-- Settles O7. -/
theorem illegalWordHasNoEffect : Obligations.IllegalWordHasNoEffect := by
  unfold Obligations.IllegalWordHasNoEffect
  intro s w ports rest e ha he hd
  have hp := ha.present ports rest
  rw [step_of_illegal he hd, execIllegal_accepting hp, hp.fresh_respond]
  rfl

/-- Settles O8. -/
theorem deadBlockAnswersFatal : Obligations.DeadBlockAnswersFatal := by
  unfold Obligations.DeadBlockAnswersFatal
  exact ⟨fun s w ports rest hd he => hd.step_command he, fun s i hd hi => exec_halted hi hd.halted⟩

/-- Settles O10. -/
theorem resetLeavesTheSpecifiedValues : Obligations.ResetLeavesTheSpecifiedValues := by
  unfold Obligations.ResetLeavesTheSpecifiedValues
  refine ⟨fun s rest he => ⟨_, step_of_reset he, ?_⟩, fun c ports x y => Grid.cell_blank x y, ⟨rfl, rfl⟩,
    rfl, rfl, rfl, rfl, rfl, rfl, rfl⟩
  simp

/-- Settles O48: only an accepting block answers terminate, and all it changes is the response. -/
theorem normalEndKeepsTheBlock : Obligations.NormalEndKeepsTheBlock := by
  unfold Obligations.NormalEndKeepsTheBlock
  exact fun _ _ _ h => h.keeps_block

/-- Settles O49. -/
theorem silentPlatformStops : Obligations.SilentPlatformStops := by
  unfold Obligations.SilentPlatformStops
  refine ⟨fun s ha hkey => ?_, fun s ha hm hcal => ?_, fun s k ha hm hcal hkey herr hev => ?_,
    fun x y lit s k hx hy ha hk hfb => ?_⟩
  · exact exec_of_waits rfl ha (.stepPoll (State.poll_eq_silent_iff.2 hkey))
  · exact exec_of_waits rfl ha (.ticks (State.clock_eq_silent_iff.2 ⟨hm, hcal⟩))
  · have hc : s.fresh.clock = .silent := State.clock_eq_silent_iff.2 ⟨hm, hcal⟩
    obtain ⟨code, hev⟩ | ⟨hev, hheld⟩ := hev
    · exact exec_of_waits rfl ha (.stepPress (State.poll_eq_value_iff.2 ⟨k, hkey, herr, hev⟩) hc)
    · exact exec_of_waits rfl ha (.stepTimeout (State.poll_eq_value_iff.2 ⟨k, hkey, herr, hev⟩) hheld hc)
  · rw [← s.length_cellOffsets x y] at hk
    have hloop := (drawPixels_stopped s.inputs.fb (pixelWord lit) (s.inputs.cellOffsets x y) 0 s.fb k hk
      fun l hl => by rw [hfb, Nat.zero_add]; exact if_neg hl.ne).2 (by rw [hfb, Nat.zero_add]; exact if_pos rfl)
    exact exec_of_waits (wellFormed_setpx.2 ⟨hx, hy⟩) ha (.setpx hloop)

end Sys2Proof.Machine
end

section
/-! SUPPORT. Proofs about the calendar converter (42_clock.md). First the day count in closed form, the months and the
end of February; then the ranges of R172 and the wrapped difference of two samples; then the obligations. -/

namespace Sys2Proof.Machine

section
variable {Y M D : Int}

/-! ### The day count -/

/-- The eras, written out: a March-based year starts after 365 days for each earlier one, and a leap day for every
fourth but not for every hundredth unless it is a four-hundredth. -/
theorem daysFromCivil_eq (Y M D : Int) :
    daysFromCivil Y M D = marchYear Y M * 365 + marchYear Y M / 4 - marchYear Y M / 100 + marchYear Y M / 400
      + dayOfYear M D - epochShift := by
  simp only [daysFromCivil, dayOfEra]
  omega

theorem dayOfYear_add_one (M D : Int) : dayOfYear M (D + 1) = dayOfYear M D + 1 := by
  simp only [dayOfYear]
  omega

/-- A month of the March-based year begins the day after the one before it ends. -/
theorem dayOfYear_next_month (h1 : 1 ≤ M) (h12 : M < 12) (h2 : M ≠ 2) :
    dayOfYear (M + 1) 1 = dayOfYear M (monthLength Y M) + 1 ∧ marchYear Y (M + 1) = marchYear Y M := by
  interval_cases M <;> simp [dayOfYear, monthLength, marchYear] at h2 ⊢

/-- So does January after December. -/
theorem dayOfYear_january :
    dayOfYear 1 1 = dayOfYear 12 (monthLength Y 12) + 1 ∧ marchYear (Y + 1) 1 = marchYear Y 12 := by
  simp [dayOfYear, monthLength, marchYear]

theorem monthLength_february : monthLength Y 2 = if (Y % 4 = 0 ∧ Y % 100 ≠ 0) ∨ Y % 400 = 0 then 29 else 28 := by
  simp [monthLength, leapYear]

/-- March begins the next March-based year, the day after February ends. -/
theorem daysFromCivil_march : daysFromCivil Y 3 1 = daysFromCivil Y 2 (monthLength Y 2) + 1 := by
  rw [daysFromCivil_eq, daysFromCivil_eq, monthLength_february]
  simp only [marchYear, dayOfYear]
  split <;> omega

/-! ### The ranges of R172 -/

theorem dayOfYear_range (h : ValidDate Y M D) : 0 ≤ dayOfYear M D ∧ dayOfYear M D ≤ 365 := by
  obtain ⟨h1, h12, hD1, hD⟩ := h
  by_cases h2 : M = 2
  · rw [h2, monthLength_february] at hD
    simp only [h2, dayOfYear]
    split at hD <;> omega
  · interval_cases M <;> simp [dayOfYear, monthLength] at h2 hD ⊢ <;> omega

theorem yearOfEra_range (y : Int) : 0 ≤ y - y / 400 * 400 ∧ y - y / 400 * 400 ≤ 399 := by
  omega

theorem dayOfEra_range {yoe doy : Int} (hy : 0 ≤ yoe ∧ yoe ≤ 399) (hd : 0 ≤ doy ∧ doy ≤ 365) :
    0 ≤ dayOfEra yoe doy ∧ dayOfEra yoe doy ≤ 146096 := by
  simp only [dayOfEra]
  omega

/-! ### Wrapped differences (R174) -/

theorem toNat_ofInt_sub_ofInt {a b : Int} (h0 : 0 ≤ a - b) (h : a - b < 2 ^ 64) :
    ((BitVec.ofInt 64 a - BitVec.ofInt 64 b).toNat : Int) = a - b := by
  rw [BitVec.toNat_sub', BitVec.toNat_ofInt, BitVec.toNat_ofInt]
  omega

end

/-! ### The obligations of 42_clock.md on the calendar -/

/-- Settles O37: the day count is linear in the day of the month, and no day is lost where a month or a year ends. -/
theorem daysFromCivilCountsDays : Obligations.DaysFromCivilCountsDays := by
  unfold Obligations.DaysFromCivilCountsDays
  refine ⟨by decide, fun Y M D h => ⟨fun _ => ?_, ?_, ?_⟩⟩
  · rw [daysFromCivil_eq, daysFromCivil_eq, dayOfYear_add_one]
    omega
  · rintro rfl hM
    by_cases h2 : M = 2
    · rw [h2]
      exact daysFromCivil_march
    · obtain ⟨hdoy, hyear⟩ := dayOfYear_next_month (Y := Y) h.1 hM h2
      rw [daysFromCivil_eq, daysFromCivil_eq, hdoy, hyear]
      omega
  · rintro rfl rfl
    obtain ⟨hdoy, hyear⟩ := dayOfYear_january (Y := Y)
    rw [daysFromCivil_eq, daysFromCivil_eq, hdoy, hyear]
    omega

/-- Settles O38. -/
theorem civilIntermediateRanges : Obligations.CivilIntermediateRanges := by
  unfold Obligations.CivilIntermediateRanges
  intro Y M D h
  have hyoe := yearOfEra_range (marchYear Y M)
  have hdoy := dayOfYear_range h
  exact ⟨hyoe, hdoy, dayOfEra_range hyoe hdoy⟩

/-- Settles O39. -/
theorem calendarDifferencesAreExact : Obligations.CalendarDifferencesAreExact := by
  unfold Obligations.CalendarDifferencesAreExact
  exact fun c d h0 h => toNat_ofInt_sub_ofInt h0 h

end Sys2Proof.Machine
end

section
/-! SUPPORT. Proofs about single commands: KEYP's collisions and the key record (41_keypad.md), TICKS (42_clock.md),
RAND (43_entropy_sound.md), the port activity of STEP (44_pacing.md) and the cause codes (60_exceptions.md). First what
a STEP records, what its poll says of the key answer, and the key table; then the obligations. -/

namespace Sys2Proof.Machine

section
variable {s : State} {ev : KeyEvent} {v : Word64}

/-! ### The key record after a STEP -/

/-- What the key record is after a STEP, by the event and, where a time is needed, the time sampled (R156). -/
def recordAfter (s : State) (v : Word64) : KeyEvent → Bool × BitVec 16 × Word64
  | .exit => (s.keyHeld, s.keyChar, s.keyTime)
  | .printable code => (true, code, v)
  | .other => (s.keyHeld && decide ((v - s.keyTime).toNat ≤ 200000000), s.keyChar, s.keyTime)

/-- Every row of R156's table is a way in which STEP completes. -/
theorem exists_ran_step_recordAfter (hp : s.poll = .value ev)
    (hc : (∃ code, ev = .printable code) ∨ (ev = .other ∧ s.keyHeld = true) → s.clock = .value v) :
    ∃ t, Ran s .step t ∧ t.keyRecord = recordAfter s v ev := by
  cases ev with
  | exit => exact ⟨_, .stepExit hp, rfl⟩
  | printable code => exact ⟨_, .stepPress hp (hc (.inl ⟨code, rfl⟩)), rfl⟩
  | other =>
    cases hk : s.keyHeld with
    | false => exact ⟨_, .stepIdle hp hk, by simp [State.keyRecord, recordAfter, hk]⟩
    | true =>
      refine ⟨_, .stepTimeout hp hk (hc (.inr ⟨rfl, hk⟩)), ?_⟩
      rw [State.keyTimeout_of_held (s := (s.note .keyPoll).noteClock) hk]
      simp only [State.keyRecord, recordAfter, hk, Bool.true_and]
      rfl

/-! ### What the poll says of the key answer -/

theorem keyEvent_eq_printable_iff {exitScancode code c : BitVec 16} {kind : BitVec 2} :
    keyEvent exitScancode kind code = .printable c ↔ kind = 2 ∧ code = c := by
  unfold keyEvent
  split_ifs <;> simp_all

theorem keyEvent_eq_other_iff {exitScancode code : BitVec 16} {kind : BitVec 2} :
    keyEvent exitScancode kind code = .other ↔ kind ≠ 2 ∧ ¬(kind = 1 ∧ code = exitScancode) := by
  unfold keyEvent
  split_ifs <;> simp_all

theorem State.key_of_poll_exit (h : s.poll = .value .exit) :
    ∃ k, s.inputs.key = some k ∧ k.err = false ∧ k.kind = 1 ∧ k.code = s.config.exitScancode := by
  obtain ⟨k, hkey, herr, hev⟩ := State.poll_eq_value_iff.1 h
  exact ⟨k, hkey, herr, keyEvent_eq_exit_iff.1 hev⟩

theorem State.key_of_poll_printable {code : BitVec 16} (h : s.poll = .value (.printable code)) :
    ∃ k, s.inputs.key = some k ∧ k.err = false ∧ k.kind = 2 := by
  obtain ⟨k, hkey, herr, hev⟩ := State.poll_eq_value_iff.1 h
  exact ⟨k, hkey, herr, (keyEvent_eq_printable_iff.1 hev).1⟩

theorem State.key_of_poll_other (h : s.poll = .value .other) :
    ∃ k, s.inputs.key = some k ∧ k.err = false ∧ k.kind ≠ 2 ∧
      ¬(k.kind = 1 ∧ k.code = s.config.exitScancode) := by
  obtain ⟨k, hkey, herr, hev⟩ := State.poll_eq_value_iff.1 h
  exact ⟨k, hkey, herr, keyEvent_eq_other_iff.1 hev⟩

/-! ### The key table -/

/-- Two indices with the same character (R151). -/
theorem keymap_collisions :
    ∀ i j : Fin 16, i.val < j.val → keymap[i.val]? = keymap[j.val]? →
      (i.val, j.val) ∈ [(0x6, 0xD), (0x9, 0xE), (0xB, 0xF)] := by
  decide

end

/-! ### The obligations -/

/-- Settles O30: three pairs of indices have equal entries in the key table, and KEYP answers by the entry. -/
theorem keyTableCollisions : Obligations.KeyTableCollisions := by
  unfold Obligations.KeyTableCollisions
  refine ⟨fun s p ha hp => ?_, fun i hi j hj => keymap_collisions ⟨i, hi⟩ ⟨j, hj⟩⟩
  simp only [List.mem_cons, List.not_mem_nil, or_false] at hp
  obtain rfl | rfl | rfl := hp
  all_goals
    rw [exec_keyp_accepting (by decide) ha, exec_keyp_accepting (by decide) ha]
    exact ⟨by simp [keyMatches, keymap], _, rfl⟩

/-- Settles O31. -/
theorem keyRecordTransitions : Obligations.KeyRecordTransitions := by
  unfold Obligations.KeyRecordTransitions
  intro s k ev v ha hkey herr hev hc
  have hp : s.fresh.poll = .value ev := State.poll_eq_value_iff.2 ⟨k, hkey, herr, hev⟩
  obtain ⟨t, hr, hrec⟩ := exists_ran_step_recordAfter hp hc
  refine ⟨t, exec_step_of_ran ha hr, ?_⟩
  cases ev <;> exact hrec

/-- Settles O34. -/
theorem ticksCountsHalfCycles : Obligations.TicksCountsHalfCycles := by
  unfold Obligations.TicksCountsHalfCycles
  intro s ha hm
  have hc : s.fresh.clock = .value (cycleNow s.inputs.cyc) := by
    rw [State.clock, show s.fresh.config.clockMode = .cycle from hm]
    rfl
  have hhalf : (cycleNow s.inputs.cyc).toNat = s.inputs.cyc.toNat / 2 := by
    simp [cycleNow, BitVec.toNat_ushiftRight, Nat.shiftRight_eq_div_pow]
  refine ⟨cycleNow s.inputs.cyc, ?_, hhalf, ?_⟩
  · rw [(exec_accepting_iff rfl ha).2 (.ticks hc), State.respond_of_ready (s := s.fresh.noteClock) ha.1]
    simp [State.noteClock, State.note, State.fresh, hm, clockAction]
  · have := s.inputs.cyc.isLt
    omega

/-- Settles O35. -/
theorem ticksReadsTheCalendar : Obligations.TicksReadsTheCalendar := by
  unfold Obligations.TicksReadsTheCalendar
  refine fun s c ha hm hcal => ⟨fun herr => ?_,
    fun herr => ⟨_, (clockFailureIsFatal.1 s c ha hm hcal herr).1, rfl, rfl⟩⟩
  have hc : s.fresh.clock = .value (calendarNow c) := by
    simp [State.clock, sampleClock, hm, hcal, herr]
  rw [(exec_accepting_iff rfl ha).2 (.ticks hc), State.respond_of_ready (s := s.fresh.noteClock) ha.1,
    State.noteClock_calendar (s := s.fresh) hm]
  rfl

/-- Settles O40. -/
theorem randYieldsAFreeByte : Obligations.RandYieldsAFreeByte := by
  unfold Obligations.RandYieldsAFreeByte
  intro s ha
  refine ⟨Config.freeByte s.entropy, ?_⟩
  rw [(exec_accepting_iff rfl ha).2 .rand,
    State.respond_of_ready (s := { s.fresh with entropy := s.fresh.entropy + 1 }) ha.1]
  rfl

/-- Settles O43. -/
theorem stepExitPath : Obligations.StepExitPath := by
  unfold Obligations.StepExitPath
  intro s k ha hkey herr hkind hcode
  have hp : s.fresh.poll = .value .exit :=
    State.poll_eq_value_iff.2 ⟨k, hkey, herr, keyEvent_eq_exit_iff.2 ⟨hkind, hcode⟩⟩
  rw [(exec_accepting_iff rfl ha).2 (.stepExit hp), State.respond_of_ready (s := s.fresh.note .keyPoll) ha.1]
  rfl

/-- Settles O47: the poll decides what else a STEP asks for. -/
theorem stepPortActivity : Obligations.StepPortActivity := by
  unfold Obligations.StepPortActivity
  intro s t ha h
  have hf : s.fatal = false := ha.2
  cases ran_of_exec_step ha h with
  | stepFailed hp =>
    obtain ⟨k, hkey, herr⟩ := State.poll_eq_failed_iff.1 hp
    exact ⟨k, hkey, by simp [herr]⟩
  | stepExit hp =>
    obtain ⟨k, hkey, -, hkind, hcode⟩ := State.key_of_poll_exit (s := s) hp
    exact ⟨k, hkey, by simp [hkind, hcode]⟩
  | stepPress hp =>
    obtain ⟨k, hkey, herr, hkind⟩ := State.key_of_poll_printable hp
    exact ⟨k, hkey, by simp [herr, hkind, State.noteClock, hf, stallCycles]⟩
  | stepPressFailed hp =>
    obtain ⟨k, hkey, herr, hkind⟩ := State.key_of_poll_printable hp
    exact ⟨k, hkey, by simp [herr, hkind, State.noteClock]⟩
  | stepTimeout hp hk =>
    obtain ⟨k, hkey, herr, -, hexit⟩ := State.key_of_poll_other (s := s) hp
    refine ⟨k, hkey, ?_⟩
    simp only [herr, hexit, show s.keyHeld = true from hk]
    simp [State.noteClock, hf, stallCycles]
  | stepTimeoutFailed hp hk =>
    obtain ⟨k, hkey, herr, -, hexit⟩ := State.key_of_poll_other (s := s) hp
    refine ⟨k, hkey, ?_⟩
    simp only [herr, hexit, show s.keyHeld = true from hk]
    simp [State.noteClock]
  | stepIdle hp hk =>
    obtain ⟨k, hkey, -, hkind, hexit⟩ := State.key_of_poll_other (s := s) hp
    refine ⟨k, hkey, ?_⟩
    simp only [hkind, hexit, show s.keyHeld = false from hk]
    simp [hf, stallCycles]

/-- Settles O55: each failure raises its own cause in a block that had none. -/
theorem fatalCausesAreNumbered : Obligations.FatalCausesAreNumbered := by
  unfold Obligations.FatalCausesAreNumbered
  refine ⟨fun x y lit s t ha h hf => ?_, fun s c ha hm hcal herr => ⟨?_, fun k hkey hkerr hev => ?_⟩,
    fun s k ha hkey herr => ⟨_, keyPollFailureIsFatal s k ha hkey herr, rfl, rfl, rfl⟩⟩
  · obtain ⟨-, ⟨hh, -⟩ | ⟨-, hr⟩⟩ := exec_next h
    · simp [ha.not_halted] at hh
    · cases hr with
      | setpxDrawn =>
        have : s.fatal = true := hf
        simp [ha.2] at this
      | setpxRefused =>
        rw [State.raiseFatal_of_not_fatal (s := s.fresh.draw x y lit) ha.2]
        exact ⟨rfl, rfl⟩
  · exact ⟨_, (clockFailureIsFatal.1 s c ha hm hcal herr).1, rfl, rfl, rfl⟩
  · exact ⟨_, (clockFailureIsFatal.1 s c ha hm hcal herr).2 k hkey hkerr hev, rfl, rfl, rfl⟩

end Sys2Proof.Machine
end

section
/-! SUPPORT. Proofs about the cycle-level sequencer (44_pacing.md §3, 30_encoding.md §3). First the cycles in which it
waits and the stall; then what a run of cycles comes to from TIME, from POLL and from RASTER; then that an accepted
command comes to what `exec` says; then the obligations. -/

namespace Sys2Proof.Machine

section
variable {q : Seq} {p : PortIn} {ports : Inputs} {o : Host.Outcome State Fault Refusal} {i : Instr} {s t : State}
  {x y : Nat} {lit : Bool}

/-! ### Waiting -/

/-- The cycle brings nothing that the sequencer waits for (R98). -/
def Seq.Unanswered (q : Seq) (p : PortIn) : Prop :=
  ((q.st.fsm = .ready ∨ q.st.fsm = .halt) ∧ p.cmd = none) ∨ (q.st.fsm = .raster ∧ p.fbAck = .silent) ∨
    (q.st.fsm = .poll ∧ p.key = none) ∨ (q.st.fsm = .time ∧ q.st.config.clockMode = .calendar ∧ p.cal = none)

theorem Seq.tick_unanswered (hr : p.rst = false) (h : q.Unanswered p) : q.tick p = q.wait := by
  obtain ⟨hf, hc⟩ | ⟨hf, hc⟩ | ⟨hf, hc⟩ | ⟨hf, hm, hc⟩ := h
  · rw [Seq.tick_boundary hr hf, hc]
  · simp only [Seq.tick, hr, hf, hc, Bool.false_eq_true, if_false]
    cases q.job <;> rfl
  · rw [Seq.tick_poll hr hf, hc]
    rfl
  · rw [Seq.tick_time hr hf, hc]
    simp only [Seq.timeCycle, sampleClock, hm]

/-- While a command is in progress no word on `cmd` is looked at. -/
theorem Seq.tick_ignores_cmd (h1 : q.st.fsm ≠ .ready) (h2 : q.st.fsm ≠ .halt) (c : Option Word) :
    q.tick { p with cmd := c } = q.tick p := by
  cases hf : q.st.fsm <;> simp_all [Seq.tick]

/-! ### The stall -/

theorem Seq.run_one (ports : Inputs) (q : Seq) : Seq.run ports 1 q = q.tick (q.portsFor ports none) := rfl

/-- `k + 1` cycles in STALL with that much time left. -/
theorem Seq.run_stall {k : Nat} (hf : q.st.fsm = .stall) (hk : k + 1 ≤ q.st.stallCnt.toNat) :
    Seq.run ports (k + 1) q =
      { st := { q.st with stallCnt := q.st.stallCnt - BitVec.ofNat 32 (k + 1) }, job := q.job, answered := false } := by
  induction k with
  | zero =>
    have hne : q.st.stallCnt ≠ 0 := fun h0 => by simp [h0] at hk
    rw [Seq.run_one, Seq.tick_stall rfl hf, Seq.stallCycle_count hne]
    rfl
  | succ k ih =>
    have hne : q.st.stallCnt - BitVec.ofNat 32 (k + 1) ≠ 0 := by bv_omega
    have hcount : q.st.stallCnt - BitVec.ofNat 32 (k + 1) - 1 = q.st.stallCnt - BitVec.ofNat 32 (k + 1 + 1) := by
      bv_omega
    rw [Seq.run_add, ih (by omega), Seq.run_one, Seq.tick_stall rfl (by exact hf), Seq.stallCycle_count hne, hcount]

/-- The block leaves STALL in the cycle in which the counter is 0 (R218). -/
theorem Seq.run_stall_to_end (ports : Inputs) (hf : q.st.fsm = .stall) :
    Seq.run ports (q.st.stallCnt.toNat + 1) q = Seq.finish ({ q.st with stallCnt := 0 }.respond .ok 0) := by
  cases hk : q.st.stallCnt.toNat with
  | zero =>
    have h0 : q.st.stallCnt = 0 := BitVec.eq_of_toNat_eq hk
    have hst : { q.st with stallCnt := 0 } = q.st := by rw [← h0]
    rw [Seq.run_one, Seq.tick_stall rfl hf, Seq.stallCycle_end h0, hst]
  | succ k =>
    have hend : q.st.stallCnt - BitVec.ofNat 32 (k + 1) = 0 := by
      rw [← hk, BitVec.ofNat_toNat, BitVec.setWidth_eq, BitVec.sub_self]
      rfl
    rw [Seq.run_add, Seq.run_stall hf hk.ge, hend, Seq.run_one, Seq.tick_stall rfl (by exact hf),
      Seq.stallCycle_end rfl]

/-! ### What a run of cycles comes to -/

/-- Clocked with PLATFORM's answers `ports`, the sequencer in `q` comes to the outcome of the command in progress: it
ends in the state given, with its response, or never answers. -/
def Seq.ComesTo (ports : Inputs) (q : Seq) : Host.Outcome State Fault Refusal → Prop
  | .next t => ∃ n, Seq.run ports n q = Seq.finish t
  | .fault _ => ∀ n, (Seq.run ports n q).answered = false
  | .refused _ => False

theorem Seq.comesTo_finish (t : State) : (Seq.finish t).ComesTo ports (.next t) := ⟨0, rfl⟩

theorem Seq.comesTo_of_tick (ha : q.answered = false) (h : (q.tick (q.portsFor ports none)).ComesTo ports o) :
    q.ComesTo ports o := by
  cases o with
  | next t => obtain ⟨n, hn⟩ := h; exact ⟨n + 1, hn⟩
  | fault f =>
    intro n
    cases n with
    | zero => exact ha
    | succ n => exact h n
  | refused r => exact h

/-- A sequencer that its own cycle leaves as it is waits for ever. -/
theorem Seq.comesTo_fault_of_fixed {f : Fault} (ha : q.answered = false) (h : q.tick (q.portsFor ports none) = q) :
    q.ComesTo ports (.fault f) := fun n => by
  rw [Seq.run_fixed h]
  exact ha

theorem Seq.comesTo_enterStall (ports : Inputs) (s : State) : (Seq.enterStall s).ComesTo ports (.next s.finishStep) :=
  ⟨_, Seq.run_stall_to_end ports rfl⟩

/-! ### From TIME -/

theorem State.keyTimeout_in (s : State) (fsm : Fsm) (v : Word64) :
    { s with fsm := fsm }.keyTimeout v = { s.keyTimeout v with fsm := fsm } := by
  unfold State.keyTimeout
  cases debounceExpired v s.keyTime <;> rfl

/-- A command that waits in TIME for its time goes on as its meaning does: `body` after the clock read (R217). -/
theorem Seq.comesTo_withTime (s : State) (job : Job) {body : Word64 → State → Host.Outcome State Fault Refusal}
    (h : ∀ v, ((Seq.goTo s .time job).takeTime { s.noteClock with fsm := .time } v).ComesTo s.inputs
      (body v s.noteClock)) :
    (Seq.goTo s .time job).ComesTo s.inputs (withTime s body) := by
  have htick := Seq.tick_time (q := Seq.goTo s .time job) (p := (Seq.goTo s .time job).portsFor s.inputs none) rfl rfl
  cases hc : s.clock with
  | value v =>
    rw [withTime_value hc]
    refine Seq.comesTo_of_tick rfl ?_
    rw [htick]
    exact (Seq.timeCycle_value s job hc).symm ▸ h v
  | failed =>
    rw [withTime_eq_next_iff.2 (.inr ⟨hc, rfl⟩)]
    refine Seq.comesTo_of_tick rfl ?_
    rw [htick]
    exact (Seq.timeCycle_failed s job hc).symm ▸ Seq.comesTo_finish _
  | silent =>
    rw [withTime_silent hc]
    exact Seq.comesTo_fault_of_fixed rfl (htick.trans (Seq.timeCycle_silent s job hc))

/-- In TIME the timeout is evaluated as at a command boundary. -/
theorem Seq.comesTo_takeTime_stepTimeout (ports : Inputs) (s : State) (v : Word64) :
    ((Seq.goTo s .time .stepTimeout).takeTime { s.noteClock with fsm := .time } v).ComesTo ports
      (.next (s.noteClock.keyTimeout v).finishStep) := by
  have hend : ({ s.noteClock with fsm := .time }.keyTimeout v).finishStep = (s.noteClock.keyTimeout v).finishStep := by
    rw [State.keyTimeout_in]
    rfl
  rw [← hend]
  exact Seq.comesTo_enterStall _ _

/-! ### From RASTER -/

/-- What a SETPX comes to that has set its cell and has the pixel loop `d` before it. -/
def State.afterPixels (s : State) (d : Drawn) : Host.Outcome State Fault Refusal :=
  match d.finish with
  | .completed => .next ({ s with fb := d.fb, activity := s.activity ++ d.activity }.respond .ok 0)
  | .refused => .next ({ s with fb := d.fb, activity := s.activity ++ d.activity }.raiseFatal .fbFail)
  | .silent => .fault .framebufferSilent

theorem State.afterPixels_none (s : State) :
    s.afterPixels { fb := s.fb, activity := [], finish := .completed } = .next (s.respond .ok 0) := by
  simp [State.afterPixels]

/-- `s` with one pixel write accepted. -/
def State.putPixel (s : State) (off : Nat) (w : Word) : State :=
  { s with fb := s.fb.writeWord off w }.note (.fbWrite off w)

/-- What a SETPX comes to with its first write accepted is what it comes to after that write. -/
theorem State.afterPixels_putPixel (s : State) (d : Drawn) (off : Nat) (w : Word) :
    (s.putPixel off w).afterPixels d = s.afterPixels { d with activity := .fbWrite off w :: d.activity } := by
  simp [State.afterPixels, State.putPixel, State.note]

/-- The sequencer in RASTER, about to write pixel (i, j) of the cell. -/
def Seq.rasterAt (s : State) (x y : Nat) (lit : Bool) (i j : Nat) : Seq :=
  Seq.goTo { s with ri := BitVec.ofNat 9 i, rj := BitVec.ofNat 10 j } .raster
    (.setpx x y lit s.inputs.cfgW s.inputs.cfgH s.inputs.cfgStride)

/-- The pixel counters hold every pixel of a cell (R29). -/
theorem Inputs.scale_lt_counters (p : Inputs) : p.scale.rx < 2 ^ 9 ∧ p.scale.ry < 2 ^ 10 := by
  have hcanvas := scale_canvas p.cfgW.toNat p.cfgH.toNat
  have := p.cfgW.isLt
  have := p.cfgH.isLt
  simp only [Inputs.scale]
  omega

theorem Seq.ri_rasterAt {i j : Nat} (hi : i < s.inputs.scale.rx) :
    (Seq.rasterAt s x y lit i j).st.ri.toNat = i :=
  (BitVec.toNat_ofNat _ _).trans (Nat.mod_eq_of_lt (hi.trans s.inputs.scale_lt_counters.1))

theorem Seq.rj_rasterAt {i j : Nat} (hj : j < s.inputs.scale.ry) :
    (Seq.rasterAt s x y lit i j).st.rj.toNat = j :=
  (BitVec.toNat_ofNat _ _).trans (Nat.mod_eq_of_lt (hj.trans s.inputs.scale_lt_counters.2))

section
variable {i j off : Nat} (hi : i < s.inputs.scale.rx) (hj : j < s.inputs.scale.ry)
include hi hj

/-- PLATFORM's answer to the request that stands is the answer to the pixel's place in the order of the writes. -/
theorem Seq.tick_rasterAt :
    (Seq.rasterAt s x y lit i j).tick ((Seq.rasterAt s x y lit i j).portsFor s.inputs none) =
      (Seq.rasterAt s x y lit i j).rasterCycle x y lit s.inputs.cfgW s.inputs.cfgH s.inputs.cfgStride
        (s.inputs.fb.answer (j * s.inputs.scale.rx + i)) := by
  have hindex : (Seq.rasterAt s x y lit i j).pixelIndex = j * s.inputs.scale.rx + i := by
    change (Seq.rasterAt s x y lit i j).st.rj.toNat * s.inputs.scale.rx + (Seq.rasterAt s x y lit i j).st.ri.toNat = _
    rw [Seq.ri_rasterAt hi, Seq.rj_rasterAt hj]
  rw [Seq.tick_raster rfl rfl rfl, Seq.portsFor, hindex]

theorem Seq.pixelOff_rasterAt :
    (Seq.rasterAt s x y lit i j).pixelOff x y s.inputs.cfgW s.inputs.cfgH s.inputs.cfgStride =
      s.inputs.scale.offset s.inputs.cfgStride.toNat x y i j := by
  rw [Seq.pixelOff, Seq.ri_rasterAt hi, Seq.rj_rasterAt hj]
  rfl

/-- A pixel write refused ends the command (R242). -/
theorem Seq.rasterCycle_refused (left : Word) (hidle : s.ri = 0 ∧ s.rj = 0)
    (hoff : s.inputs.scale.offset s.inputs.cfgStride.toNat x y i j = off) :
    (Seq.rasterAt s x y lit i j).rasterCycle x y lit s.inputs.cfgW s.inputs.cfgH s.inputs.cfgStride (.refused left) =
      Seq.finish (({ s with fb := s.fb.writeWord off left }.note (.fbRefused off (pixelWord lit))).raiseFatal
        .fbFail) := by
  obtain ⟨hri, hrj⟩ := hidle
  simp only [Seq.rasterCycle, Seq.pixelOff_rasterAt hi hj, hoff]
  simp only [Seq.rasterAt, Seq.goTo, ← hri, ← hrj]
  rfl

/-- After a pixel write that is accepted the counters go on to the next pixel of the row. -/
theorem Seq.rasterCycle_next_pixel (hoff : s.inputs.scale.offset s.inputs.cfgStride.toNat x y i j = off)
    (hnext : i + 1 < s.inputs.scale.rx) :
    (Seq.rasterAt s x y lit i j).rasterCycle x y lit s.inputs.cfgW s.inputs.cfgH s.inputs.cfgStride .accepted =
      Seq.rasterAt (s.putPixel off (pixelWord lit)) x y lit (i + 1) j := by
  have hri := Seq.ri_rasterAt (x := x) (y := y) (lit := lit) (j := j) hi
  simp only [Seq.rasterCycle, Seq.pixelOff_rasterAt hi hj, hoff]
  rw [if_pos (by rw [State.note_ri, hri]; exact hnext)]
  simp only [Seq.rasterAt, Seq.goTo, BitVec.ofNat_add]
  rfl

/-- Or to the next row. -/
theorem Seq.rasterCycle_next_row (hoff : s.inputs.scale.offset s.inputs.cfgStride.toNat x y i j = off)
    (hlast : ¬ i + 1 < s.inputs.scale.rx) (hnext : j + 1 < s.inputs.scale.ry) :
    (Seq.rasterAt s x y lit i j).rasterCycle x y lit s.inputs.cfgW s.inputs.cfgH s.inputs.cfgStride .accepted =
      Seq.rasterAt (s.putPixel off (pixelWord lit)) x y lit 0 (j + 1) := by
  have hri := Seq.ri_rasterAt (x := x) (y := y) (lit := lit) (j := j) hi
  have hrj := Seq.rj_rasterAt (x := x) (y := y) (lit := lit) (i := i) hj
  simp only [Seq.rasterCycle, Seq.pixelOff_rasterAt hi hj, hoff]
  rw [if_neg (by rw [State.note_ri, hri]; exact hlast), if_pos (by rw [State.note_rj, hrj]; exact hnext)]
  simp only [Seq.rasterAt, Seq.goTo, BitVec.ofNat_add]
  rfl

/-- After the last pixel the command ends. -/
theorem Seq.rasterCycle_last (hidle : s.ri = 0 ∧ s.rj = 0)
    (hoff : s.inputs.scale.offset s.inputs.cfgStride.toNat x y i j = off)
    (hlast : ¬ i + 1 < s.inputs.scale.rx) (hlast' : ¬ j + 1 < s.inputs.scale.ry) :
    (Seq.rasterAt s x y lit i j).rasterCycle x y lit s.inputs.cfgW s.inputs.cfgH s.inputs.cfgStride .accepted =
      Seq.finish ((s.putPixel off (pixelWord lit)).respond .ok 0) := by
  obtain ⟨h0, h0'⟩ := hidle
  have hri := Seq.ri_rasterAt (x := x) (y := y) (lit := lit) (j := j) hi
  have hrj := Seq.rj_rasterAt (x := x) (y := y) (lit := lit) (i := i) hj
  simp only [Seq.rasterCycle, Seq.pixelOff_rasterAt hi hj, hoff]
  rw [if_neg (by rw [State.note_ri, hri]; exact hlast), if_neg (by rw [State.note_rj, hrj]; exact hlast')]
  simp only [Seq.rasterAt, Seq.goTo, ← h0, ← h0']
  rfl

end

/-- From pixel (i, j) on the sequencer does what the pixel loop of the whole command does (R122, R217). The induction is
over what is left of the cell's offsets. -/
theorem Seq.comesTo_rasterAt {i j : Nat} {left : List Nat} (hidle : s.ri = 0 ∧ s.rj = 0)
    (hi : i < s.inputs.scale.rx) (hj : j < s.inputs.scale.ry)
    (hleft : (s.inputs.cellOffsets x y).drop (j * s.inputs.scale.rx + i) = left) :
    (Seq.rasterAt s x y lit i j).ComesTo s.inputs
      (s.afterPixels (drawPixels s.inputs.fb (pixelWord lit) (j * s.inputs.scale.rx + i) left s.fb)) := by
  induction left generalizing s i j with
  | nil =>
    have hlt := digits_lt hj hi
    have hlen := s.length_cellOffsets x y
    have := List.drop_eq_nil_iff.1 hleft
    rw [hlen, Nat.mul_comm] at this
    omega
  | cons off rest ih =>
    have htick := Seq.tick_rasterAt (s := s) (x := x) (y := y) (lit := lit) hi hj
    have hoff : s.inputs.scale.offset s.inputs.cfgStride.toNat x y i j = off := by
      have hget := Scale.cellOffsets_getElem? s.inputs.cfgStride.toNat x y hj hi
      have hhead : (s.inputs.cellOffsets x y)[j * s.inputs.scale.rx + i]? = some off := by
        rw [← List.head?_drop, hleft, List.head?_cons]
      exact Option.some.inj (hget.symm.trans hhead)
    have hrest : (s.inputs.cellOffsets x y).drop (j * s.inputs.scale.rx + i + 1) = rest := by
      rw [← List.drop_drop, hleft, List.drop_one, List.tail_cons]
    rw [drawPixels]
    cases hans : s.inputs.fb.answer (j * s.inputs.scale.rx + i) with
    | silent => exact Seq.comesTo_fault_of_fixed rfl (htick.trans (by rw [hans]; rfl))
    | refused left =>
      refine Seq.comesTo_of_tick rfl ?_
      rw [htick, hans, Seq.rasterCycle_refused hi hj left hidle hoff]
      exact Seq.comesTo_finish _
    | accepted =>
      refine Seq.comesTo_of_tick rfl ?_
      rw [htick, hans]
      simp only
      rw [← State.afterPixels_putPixel]
      by_cases hpix : i + 1 < s.inputs.scale.rx
      · rw [Seq.rasterCycle_next_pixel hi hj hoff hpix]
        exact ih (s := s.putPixel off (pixelWord lit)) hidle hpix hj hrest
      have hend : j * s.inputs.scale.rx + i + 1 = (j + 1) * s.inputs.scale.rx + 0 := by
        rw [Nat.succ_mul]
        omega
      by_cases hrow : j + 1 < s.inputs.scale.ry
      · rw [Seq.rasterCycle_next_row hi hj hoff hpix hrow, hend]
        exact ih (s := s.putPixel off (pixelWord lit)) hidle (Nat.zero_lt_of_lt hi) hrow (hend ▸ hrest)
      · have hnil : rest = [] := by
          rw [← hrest, List.drop_eq_nil_iff, s.length_cellOffsets, hend, Nat.mul_comm]
          exact Nat.mul_le_mul_right _ (Nat.not_lt.1 hrow)
        rw [Seq.rasterCycle_last hi hj hidle hoff hpix hrow, hnil]
        exact (State.afterPixels_none (s.putPixel off (pixelWord lit))).symm ▸ Seq.comesTo_finish _

/-! ### An accepted command -/

/-- The block at a command boundary, in the cycle in which it is given a word. -/
def Seq.boundary (s : State) : Seq := { st := s, job := .idle, answered := false }

theorem Seq.afterAccept_eq (w : Word) (h : s.fsm = .ready ∨ s.fsm = .halt) :
    Seq.afterAccept s ports w = (Seq.boundary s).accept w ((Seq.boundary s).portsFor ports (some w)) :=
  Seq.tick_boundary (q := Seq.boundary s) rfl h

/-- `s` after SETPX x, y, lit has written GRID. -/
def State.setCell (s : State) (x y : Nat) (lit : Bool) : State := { s with grid := s.grid.setCell x y lit }

theorem exec_setpx_eq_afterPixels (hi : (Instr.setpx x y lit).wellFormed = true) (ha : s.Accepting) :
    exec (.setpx x y lit) s = (s.fresh.setCell x y lit).afterPixels (s.fresh.pixelLoop x y lit) :=
  (exec_setpx_accepting lit hi ha).trans rfl

/-- SETPX is accepted into RASTER, or ends at once when its cell has no pixel (R127, R217). -/
theorem Seq.accept_setpx (hi : (Instr.setpx x y lit).wellFormed = true) (ha : s.Accepting) :
    (Seq.boundary s).accept (encode (.setpx x y lit))
        ((Seq.boundary s).portsFor s.inputs (some (encode (.setpx x y lit)))) =
      if s.inputs.scale.rx * s.inputs.scale.ry = 0 then Seq.finish ((s.fresh.setCell x y lit).respond .ok 0)
      else Seq.rasterAt (s.fresh.setCell x y lit) x y lit 0 0 := by
  have hlive : (Seq.boundary s).st.halted = false := ha.not_halted
  simp only [Seq.accept, hlive, decode_encode hi, Bool.false_eq_true, if_false]
  rfl

theorem Seq.comesTo_setpx (hi : (Instr.setpx x y lit).wellFormed = true) (ha : s.Accepting)
    (hidle : s.ri = 0 ∧ s.rj = 0) :
    ((Seq.boundary s).accept (encode (.setpx x y lit))
      ((Seq.boundary s).portsFor s.inputs (some (encode (.setpx x y lit))))).ComesTo s.inputs
      (exec (.setpx x y lit) s) := by
  rw [Seq.accept_setpx hi ha, exec_setpx_eq_afterPixels hi ha]
  split
  next hnone =>
    have hoffs : s.inputs.cellOffsets x y = [] :=
      List.eq_nil_of_length_eq_zero ((s.length_cellOffsets x y).trans hnone)
    have hloop : s.fresh.pixelLoop x y lit = { fb := s.fb, activity := [], finish := .completed } := by
      rw [State.pixelLoop, State.fresh_inputs, hoffs]
      rfl
    rw [hloop]
    exact (State.afterPixels_none (s.fresh.setCell x y lit)).symm ▸ Seq.comesTo_finish _
  next hsome =>
    obtain ⟨hrx, hry⟩ := Nat.mul_ne_zero_iff.1 hsome
    have hraster := Seq.comesTo_rasterAt (s := s.fresh.setCell x y lit) (x := x) (y := y) (lit := lit) hidle
      (Nat.pos_of_ne_zero hrx) (Nat.pos_of_ne_zero hry) rfl
    rw [Nat.zero_mul, Nat.zero_add, List.drop_zero] at hraster
    exact hraster

theorem Seq.comesTo_ticks (ha : s.Accepting) :
    ((Seq.boundary s).accept (encode .ticks) ((Seq.boundary s).portsFor s.inputs (some (encode .ticks)))).ComesTo
      s.inputs (exec .ticks s) := by
  have hlive : (Seq.boundary s).st.halted = false := ha.not_halted
  have haccept : (Seq.boundary s).accept (encode .ticks)
      ((Seq.boundary s).portsFor s.inputs (some (encode .ticks))) = Seq.goTo s.fresh .time .ticks := by
    simp only [Seq.accept, hlive, decode_encode (i := .ticks) rfl, Bool.false_eq_true, if_false]
    rfl
  rw [haccept, exec, execTicks, runCommand_accepting _ rfl ha]
  exact Seq.comesTo_withTime s.fresh .ticks fun v => Seq.comesTo_finish _

theorem Seq.comesTo_step (ha : s.Accepting) :
    ((Seq.boundary s).accept (encode .step) ((Seq.boundary s).portsFor s.inputs (some (encode .step)))).ComesTo
      s.inputs (exec .step s) := by
  have hlive : (Seq.boundary s).st.halted = false := ha.not_halted
  have haccept : (Seq.boundary s).accept (encode .step)
      ((Seq.boundary s).portsFor s.inputs (some (encode .step))) = Seq.goTo s.fresh .poll .step := by
    simp only [Seq.accept, hlive, decode_encode (i := .step) rfl, Bool.false_eq_true, if_false]
    rfl
  have hpoll : pollKey (Seq.goTo s.fresh .poll .step).st.config.exitScancode s.inputs.key = s.fresh.poll := rfl
  have htick : (Seq.goTo s.fresh .poll .step).tick ((Seq.goTo s.fresh .poll .step).portsFor s.inputs none) =
      (Seq.goTo s.fresh .poll .step).pollCycle s.inputs.key := Seq.tick_poll rfl rfl
  rw [Seq.pollCycle, hpoll] at htick
  rw [haccept, exec_step_accepting ha]
  cases hp : s.fresh.poll with
  | silent => exact Seq.comesTo_fault_of_fixed rfl (htick.trans (by rw [hp]; rfl))
  | failed =>
    refine Seq.comesTo_of_tick rfl ?_
    rw [htick, hp]
    exact Seq.comesTo_finish _
  | value ev =>
    refine Seq.comesTo_of_tick rfl ?_
    rw [htick, hp]
    cases ev with
    | exit => exact Seq.comesTo_finish _
    | printable code =>
      exact Seq.comesTo_withTime (s.fresh.note .keyPoll) (.stepPress code) fun v => Seq.comesTo_enterStall _ _
    | other =>
      by_cases hk : s.fresh.keyHeld = true
      · have hheld : ((Seq.goTo s.fresh .poll .step).st.note .keyPoll).keyHeld = true := hk
        simp only [if_pos hk, if_pos hheld]
        exact Seq.comesTo_withTime (s.fresh.note .keyPoll) .stepTimeout fun v => Seq.comesTo_takeTime_stepTimeout _ _ v
      · have hheld : ¬ ((Seq.goTo s.fresh .poll .step).st.note .keyPoll).keyHeld = true := hk
        simp only [if_neg hk, if_neg hheld]
        exact Seq.comesTo_enterStall _ (s.fresh.note .keyPoll)

/-- In a live block every accepted word comes to what its command's meaning says. -/
theorem Seq.comesTo_exec_accepting (hi : i.wellFormed = true) (ha : s.Accepting) (hidle : s.ri = 0 ∧ s.rj = 0) :
    ((Seq.boundary s).accept (encode i) ((Seq.boundary s).portsFor s.inputs (some (encode i)))).ComesTo s.inputs
      (exec i s) := by
  cases i with
  | setpx x y lit => exact Seq.comesTo_setpx hi ha hidle
  | ticks => exact Seq.comesTo_ticks ha
  | step => exact Seq.comesTo_step ha
  | _ =>
    obtain ⟨t, hr⟩ | ⟨f, hw⟩ := ran_or_waits s.fresh _
    · have hx := (exec_accepting_iff hi ha).2 hr
      rw [hx]
      simp only [Seq.accept, Seq.boundary, ha.not_halted, decode_encode hi, hx, Bool.false_eq_true, if_false]
      exact Seq.comesTo_finish t
    · cases hw

/-- The cycles and the whole command agree (R217, D24). -/
theorem Seq.comesTo_exec (hi : i.wellFormed = true) (h : s.Inv) :
    (Seq.afterAccept s s.inputs (encode i)).ComesTo s.inputs (exec i s) := by
  rw [Seq.afterAccept_eq _ h.boundary]
  obtain ha | hd := h.accepting_or_dead
  · exact Seq.comesTo_exec_accepting hi ha h.transientsIdle.2
  · rw [Seq.accept_halted (q := Seq.boundary s) _ hd.halted, exec_halted hi hd.halted]
    exact Seq.comesTo_finish _

end

/-! ### The obligations on the sequencer -/

/-- Settles O50. -/
theorem sequencerRunsEveryCommand : Obligations.SequencerRunsEveryCommand := by
  unfold Obligations.SequencerRunsEveryCommand
  intro i s t hi h he
  have hcomes := Seq.comesTo_exec hi h
  rw [he] at hcomes
  exact hcomes

/-- Settles O51. -/
theorem sequencerWaitsForEverOnSilence : Obligations.SequencerWaitsForEverOnSilence := by
  unfold Obligations.SequencerWaitsForEverOnSilence
  intro i s f hi h he
  have hcomes := Seq.comesTo_exec hi h
  rw [he] at hcomes
  exact hcomes

/-- Settles O52. -/
theorem sequencerHoldsUntilAcknowledged : Obligations.SequencerHoldsUntilAcknowledged := by
  unfold Obligations.SequencerHoldsUntilAcknowledged
  refine ⟨fun q p hr h => ?_, fun q p c h1 h2 => Seq.tick_ignores_cmd h1 h2 c, fun q => by simp [Seq.outputs]⟩
  rw [Seq.tick_unanswered hr h]
  exact ⟨rfl, rfl, rfl, rfl, rfl, rfl⟩

/-- Settles O53. -/
theorem stallLastsItsCycles : Obligations.StallLastsItsCycles := by
  unfold Obligations.StallLastsItsCycles
  refine ⟨fun s hfits => ⟨rfl, ?_⟩, fun ports q hf => ⟨fun k h0 hk => ?_, Seq.run_stall_to_end ports hf⟩⟩
  · have hlt : s.config.clkHz / 600 < 2 ^ 32 := Nat.div_lt_of_lt_mul hfits
    exact (BitVec.toNat_ofNat _ _).trans (Nat.mod_eq_of_lt hlt)
  · obtain ⟨k, rfl⟩ := Nat.exists_eq_succ_of_ne_zero h0.ne'
    exact Seq.run_stall hf hk

/-- Settles O54. -/
theorem resetAbandonsTheCommand : Obligations.ResetAbandonsTheCommand := by
  unfold Obligations.ResetAbandonsTheCommand
  intro q p hr
  rw [Seq.tick_rst hr]
  refine ⟨rfl, ?_, rfl⟩
  cases hf : q.st.fsm <;> cases hj : q.job <;> simp [Seq.outputs, hf, hj]

end Sys2Proof.Machine
end
